-- ==== Sys2Proof/Word.lean ====
section
/-! DEFINITION. The word types of DWED, at the widths of 00_scope.md R8 and 10_state.md R16. -/

namespace Sys2Proof

/-- A command word: always one whole 32-bit value (30_encoding.md R56). -/
abbrev Word := BitVec 32

/-- A raw ADC reading, 0..4095 (30_encoding.md R59). -/
abbrev Raw := BitVec 12

/-- A calibration offset: signed, held in 16 bits (00_scope.md R8); its value is `BitVec.toInt`. -/
abbrev Offset := BitVec 16

/-- An accepted sample, 12 bits unsigned (00_scope.md R8). -/
abbrev Sample := BitVec 12

/-- A value of the millisecond time base, 32 bits unsigned (00_scope.md R8). -/
abbrev Time := BitVec 32

/-- A duty register, 16 bits unsigned (00_scope.md R8). -/
abbrev Duty := BitVec 16

/-- A pixel coordinate register, 8 bits unsigned (00_scope.md R8). -/
abbrev Coord := BitVec 8

/-- One level bit per button input: bit 0 A, bit 1 B, bit 2 C; 1 = released (30_encoding.md R61). -/
abbrev Levels := BitVec 3

end Sys2Proof
end

