-- ==== Sys2Proof/Config.lean ====
section
/-! DEFINITION. The parameters of 00_scope.md R7: those with a default value as a record that the machine takes as an
argument (notes/assumptions/1.md), and those the spec leaves OPEN as constants without a body (entries 8 and 9). -/

namespace Sys2Proof

/-- The named parameters of 00_scope.md R7 that have a default value. -/
structure Params where
  /-- `ADC_MAX`: largest valid reading and sample, the full-scale divisor. -/
  adcMax : Nat := 4095
  /-- `CAL_MID`: the midpoint the calibrated centre should read. -/
  calMid : Nat := 2048
  /-- `PWM_PERIOD`: PWM period count and largest duty. -/
  pwmPeriod : Nat := 2048
  /-- `DEBOUNCE_MS`: the debounce window in milliseconds. -/
  debounceMs : Nat := 200
  /-- `DISP_W`: display width in pixels. -/
  dispW : Nat := 128
  /-- `DISP_H`: display height in pixels. -/
  dispH : Nat := 64
  /-- `MARKER`: marker side, and the margin subtracted from each dimension. -/
  marker : Nat := 8
  /-- `TICK_MS`: the host's tick period; no rule of DWED reads it (R7). -/
  tickMs : Nat := 100
  deriving DecidableEq, Repr

/-- The constraint column of 00_scope.md R7. What the machine does with a record that breaks it is notes/assumptions/11.md. -/
structure Params.Legal (p : Params) : Prop where
  /-- "fixed at 4095 by the 12-bit operand fields". -/
  adcMax_eq : p.adcMax = 4095
  calMid_le : p.calMid ≤ p.adcMax
  one_le_pwmPeriod : 1 ≤ p.pwmPeriod
  pwmPeriod_le : p.pwmPeriod ≤ 65535
  debounceMs_lt : p.debounceMs < 2 ^ 32
  marker_le_dispW : p.marker ≤ p.dispW
  dispW_le : p.dispW ≤ 255 + p.marker
  marker_le_dispH : p.marker ≤ p.dispH
  dispH_le : p.dispH ≤ 255 + p.marker
  one_le_marker : 1 ≤ p.marker

/-- A rectangle `(x, y, w, h)` in display pixels (92_eei_decisions.md D15). -/
structure Rect where
  x : Nat
  y : Nat
  w : Nat
  h : Nat
  deriving DecidableEq, Repr

/-- The values `CMD_BYTE_ORDER` may take. DESIGN CHOICE (notes/assumptions/9.md): 20_memory.md R40 leaves the order of the bytes on
a byte-serial transport open and lists no values; the model names these two only. No command reads it. -/
inductive ByteOrder
  /-- bits 31:24 arrive first. -/
  | mostSignificantFirst
  /-- bits 7:0 arrive first. -/
  | leastSignificantFirst
  deriving DecidableEq, Repr, Inhabited

/-- `BORDER_RECTS(d)`, OPEN (43_pixel.md R110): the rectangles a border request stands for. It has no body, so no proof can
assume a geometry. -/
opaque Config.borderRects : Bool → List Rect

/-- Whether the rectangles of `BORDER(d)` are filled: 91_not_in_source.md N6 says the fill of either form is not given
(notes/assumptions/8.md). -/
opaque Config.borderFilled : Bool → Bool

/-- `CMD_BYTE_ORDER`, OPEN (20_memory.md R40): a property of a byte-serial transport, read by no command. -/
opaque Config.cmdByteOrder : ByteOrder

/-- `DISPLAY_SERIALISED`, OPEN (70_reset_and_hazards.md R136): a property of the display collaborator, read by no command. -/
opaque Config.displaySerialised : Bool

end Sys2Proof
end

