-- ==== Sys2Proof/Syntax.lean ====
section
/-! DEFINITION. The command set of DWED, one constructor per row of spec/opcode_table.json (30_encoding.md R62). -/

namespace Sys2Proof

/-- A command of DWED with its operand fields (30_encoding.md R58 to R62). In this spec an "instruction" is a command (R2). -/
inductive Instr
  /-- CALX: capture the X-axis calibration offset (R69). -/
  | calx (raw : Raw)
  /-- CALY: capture the Y-axis calibration offset (R70). -/
  | caly (raw : Raw)
  /-- SAMPX: offset-adjust one X reading, with the hold filter (R74). -/
  | sampx (raw : Raw)
  /-- SAMPY: offset-adjust one Y reading, clamped (R76). -/
  | sampy (raw : Raw)
  /-- EDGE: present one falling edge on the input `pin` selects (R60, R88). -/
  | edge (pin : BitVec 2)
  /-- LEVELS: present the three button levels (R61, R89). -/
  | levels (lvl : Levels)
  /-- MAP: compute and apply both duties (R97). -/
  | map
  /-- PIX: place the marker and issue one tick's render (R105). -/
  | pix
  deriving DecidableEq, Repr

end Sys2Proof
end

