-- ==== Sys2Proof/WellFormed.lean ====
section
/-! DEFINITION. Which terms of `Instr` are commands the opcode table admits. The one check the field widths leave is EDGE's
`pin ≠ 0b11` (30_encoding.md R62: "A word selects a command when (word AND mask) = match and, for EDGE, pin ≠ 0b11"). -/

namespace Sys2Proof

/-- The check on a command's operands (30_encoding.md R59, R60, R61). -/
def Instr.wellFormed : Instr → Bool
  | .calx _ => true
  | .caly _ => true
  | .sampx _ => true
  | .sampy _ => true
  | .edge pin => pin != 0b11#2
  | .levels _ => true
  | .map => true
  | .pix => true

/-- A well-formed command. -/
abbrev WellFormed (i : Instr) : Prop := i.wellFormed = true

end Sys2Proof
end

