-- ==== Sys2Proof/Decode.lean ====
section
/-! DEFINITION. Decoding a command word and encoding a command, from 30_encoding.md R56 to R65. -/

namespace Sys2Proof

/-- The four formats of 30_encoding.md R58. -/
inductive Format
  | fRaw
  | fPin
  | fLvl
  | fNone
  deriving DecidableEq, Repr

/-- The legal opcodes of 30_encoding.md R62. -/
inductive Opcode
  | calx
  | caly
  | sampx
  | sampy
  | edge
  | levels
  | map
  | pix
  deriving DecidableEq, Repr

/-- Why a word is illegal: the three cases of 30_encoding.md R63. -/
inductive Illegal
  /-- `OP` is 0x0 or 0x9..0xF. -/
  | illegalOpcode
  /-- `OP` is legal but a reserved bit of its format is 1. -/
  | reservedBits
  /-- EDGE with `pin` = 0b11. -/
  | reservedPin
  deriving DecidableEq, Repr

/-- The opcode field `OP`, bits 31:28 (30_encoding.md R57). -/
def opField (w : Word) : BitVec 4 := w.extractLsb' 28 4

/-- The field `raw`, bits 11:0 (30_encoding.md R59). -/
def rawField (w : Word) : Raw := w.extractLsb' 0 12

/-- The field `pin`, bits 1:0 (30_encoding.md R60). -/
def pinField (w : Word) : BitVec 2 := w.extractLsb' 0 2

/-- The field `lvl`, bits 2:0 (30_encoding.md R61). -/
def lvlField (w : Word) : Levels := w.extractLsb' 0 3

/-- The OP column of the opcode map, read from the bits (30_encoding.md R62). -/
def Opcode.ofBits (b : BitVec 4) : Option Opcode :=
  if b = 0x1#4 then some .calx
  else if b = 0x2#4 then some .caly
  else if b = 0x3#4 then some .sampx
  else if b = 0x4#4 then some .sampy
  else if b = 0x5#4 then some .edge
  else if b = 0x6#4 then some .levels
  else if b = 0x7#4 then some .map
  else if b = 0x8#4 then some .pix
  else none

/-- The Format column of the opcode map (30_encoding.md R62). -/
def Opcode.format : Opcode → Format
  | .calx => .fRaw
  | .caly => .fRaw
  | .sampx => .fRaw
  | .sampy => .fRaw
  | .edge => .fPin
  | .levels => .fLvl
  | .map => .fNone
  | .pix => .fNone

/-- The match column of the opcode map (30_encoding.md R62). -/
def Opcode.matchWord : Opcode → Word
  | .calx => 0x10000000#32
  | .caly => 0x20000000#32
  | .sampx => 0x30000000#32
  | .sampy => 0x40000000#32
  | .edge => 0x50000000#32
  | .levels => 0x60000000#32
  | .map => 0x70000000#32
  | .pix => 0x80000000#32

/-- The mask column of the opcode map, one value per format (30_encoding.md R62). -/
def Format.mask : Format → Word
  | .fRaw => 0xFFFFF000#32
  | .fPin => 0xFFFFFFFC#32
  | .fLvl => 0xFFFFFFF8#32
  | .fNone => 0xFFFFFFFF#32

/-- The reserved bits of a format: the mask's 1 bits inside 27:0 (30_encoding.md R64). -/
def Format.reserved (f : Format) : Word := f.mask &&& 0x0FFFFFFF#32

/-- The command of a legal opcode with the fields of the word (30_encoding.md R62). -/
def Opcode.instr (op : Opcode) (w : Word) : Instr :=
  match op with
  | .calx => .calx (rawField w)
  | .caly => .caly (rawField w)
  | .sampx => .sampx (rawField w)
  | .sampy => .sampy (rawField w)
  | .edge => .edge (pinField w)
  | .levels => .levels (lvlField w)
  | .map => .map
  | .pix => .pix

/-- `decode(word)` of 30_encoding.md R64, in its fixed order: opcode, reserved bits, pin. A command is always one word
(R56, R65), so nothing is left over. -/
def decode (w : Word) : Except Illegal Instr :=
  match Opcode.ofBits (opField w) with
  | none => .error .illegalOpcode
  | some op =>
    if w &&& op.format.reserved ≠ 0#32 then .error .reservedBits
    else if op = .edge ∧ pinField w = 0b11#2 then .error .reservedPin
    else .ok (op.instr w)

/-- The word of a command: the Word column of 30_encoding.md R66. -/
def encode : Instr → Word
  | .calx raw => 0x10000000#32 ||| raw.setWidth 32
  | .caly raw => 0x20000000#32 ||| raw.setWidth 32
  | .sampx raw => 0x30000000#32 ||| raw.setWidth 32
  | .sampy raw => 0x40000000#32 ||| raw.setWidth 32
  | .edge pin => 0x50000000#32 ||| pin.setWidth 32
  | .levels lvl => 0x60000000#32 ||| lvl.setWidth 32
  | .map => 0x70000000#32
  | .pix => 0x80000000#32

/-- One row of the opcode map: the words it selects are those with `word AND mask = match` (30_encoding.md R62). -/
structure OpRow where
  mask : Word
  matchWord : Word
  deriving DecidableEq, Repr

/-- The row of an opcode. -/
def Opcode.row (op : Opcode) : OpRow := ⟨op.format.mask, op.matchWord⟩

/-- The legal rows of the opcode map, in the table's order (30_encoding.md R62). -/
def opcodeTable : List OpRow :=
  [Opcode.calx.row, Opcode.caly.row, Opcode.sampx.row, Opcode.sampy.row, Opcode.edge.row, Opcode.levels.row,
    Opcode.map.row, Opcode.pix.row]

/-- Some word is selected by both rows: they agree wherever both masks look. -/
def OpRow.overlaps (r q : OpRow) : Bool := (r.matchWord ^^^ q.matchWord) &&& r.mask &&& q.mask == 0#32

/-- The command word that four bytes, in the order they arrive on a byte-serial transport, stand for: a transport's own
affair (20_memory.md R40, R42; notes/assumptions/9.md), no operation of DWED. -/
def wordOfBytes (order : ByteOrder) (b0 b1 b2 b3 : BitVec 8) : Word :=
  match order with
  | .mostSignificantFirst => b0 ++ b1 ++ b2 ++ b3
  | .leastSignificantFirst => b3 ++ b2 ++ b1 ++ b0

/-- The host's question: the command this decoder reads from the low `nbits` bits of `w`. DWED takes whole 32-bit words
(30_encoding.md R56), so bit k of `w` is bit k of the command word and the bits above `nbits` are 0
(notes/assumptions/13.md). -/
def decodeTableWord (nbits w : Nat) : Option Instr :=
  match decode (BitVec.ofNat 32 (w % 2 ^ nbits)) with
  | .ok i => some i
  | .error _ => none

end Sys2Proof
end

