-- ==== Sys2Proof/Machine/State.lean ====
section
/-! DEFINITION. The state of DWED (10_state.md R16), its events (R32), what the host side holds, the state after reset
(70_reset_and_hazards.md R127), and the reasons a step can stop. -/

namespace Sys2Proof.Machine

/-- The three button inputs (00_scope.md R14): mode cycle, bootloader, joystick press. -/
inductive Input
  | a
  | b
  | c
  deriving DecidableEq, Repr

/-- The two analog axes (40_calibrate_sample.md). -/
inductive Axis
  | x
  | y
  deriving DecidableEq, Repr

/-- The two agents that issue commands (00_scope.md R9). -/
inductive Agent
  /-- the control loop. -/
  | tick
  /-- the interrupt context. -/
  | edge
  deriving DecidableEq, Repr

/-- The two PWM channels (10_state.md R28): red, driven by X, and blue, driven by Y. -/
inductive Channel
  | r
  | b
  deriving DecidableEq, Repr

/-- The names of `LED_MODE`'s codes (10_state.md R24). -/
inductive LedMode
  | off
  | red
  | blue
  | both
  deriving DecidableEq, Repr

/-- The codes a command can fault with (60_exceptions.md R114). -/
inductive FaultCode
  /-- code 1. -/
  | illegalOpcode
  /-- code 2. -/
  | reservedBits
  /-- code 3. -/
  | reservedPin
  /-- code 4. -/
  | recalibration
  deriving DecidableEq, Repr

/-- An output event (10_state.md R32). -/
inductive Event
  /-- `SET_DUTY(ch, v)`. -/
  | setDuty (ch : Channel) (v : Nat)
  /-- `CLEAR`. -/
  | clear
  /-- `BORDER(d)`. -/
  | border (d : Bool)
  /-- `RECT(x, y, w, h, f)`. -/
  | rect (x y w h : Nat) (f : Bool)
  /-- `FLUSH`. -/
  | flush
  /-- `PIN(v)`. -/
  | pin (v : Bool)
  /-- `BOOT`. -/
  | boot
  deriving DecidableEq, Repr

/-- What the outside world does next: it raises RST, or one command of an agent reaches DWED while the NOW_MS input is `now`
(10_state.md R33; 20_memory.md R45; 70_reset_and_hazards.md R129; notes/assumptions/2.md). -/
inductive Turn
  | rst
  | perform (agent : Agent) (now : Time)
  deriving DecidableEq, Repr

/-- The host side of the command port (10_state.md R33). It is input, no state element of DWED. -/
structure HostPort where
  /-- The NOW_MS input, as sampled for the command being performed (R33, R12). -/
  nowMs : Time
  /-- The words the tick agent offers, oldest first (R33; 60_exceptions.md R117). -/
  tickCmds : List Word
  /-- The words the edge agent offers, oldest first. -/
  edgeCmds : List Word
  /-- The schedule (20_memory.md R45). -/
  turns : List Turn
  deriving DecidableEq, Repr

/-- The state: the elements S0 to S17 of 10_state.md R16, and beside them the parameters (00_scope.md R7) and the host side
that the step takes as arguments (notes/assumptions/1.md and 2.md). A one-bit element is a Bool (notes/assumptions/14.md). -/
structure State where
  /-- S0 `OFF_X`, signed 16. -/
  offX : Offset
  /-- S1 `OFF_Y`, signed 16. -/
  offY : Offset
  /-- S2 `CAL_DONE`, bit 0 X, bit 1 Y. -/
  calDone : BitVec 2
  /-- S3 `SX`. -/
  sx : Sample
  /-- S4 `SY`. -/
  sy : Sample
  /-- S5 `LAST_EV`. -/
  lastEv : Time
  /-- S6 `LED_MODE`, the code of R24. -/
  ledMode : BitVec 2
  /-- S7 `BORDER_D`, true for 1, doubled. -/
  borderD : Bool
  /-- S8 `LED_PIN`, true for 1, on. -/
  ledPin : Bool
  /-- S9 `PREV_LVL`. -/
  prevLvl : Levels
  /-- S10 `PWM_R`. -/
  pwmR : Duty
  /-- S11 `PWM_B`. -/
  pwmB : Duty
  /-- S12 `PIX_X`. -/
  pixX : Coord
  /-- S13 `PIX_Y`. -/
  pixY : Coord
  /-- S14 `FAULT`. -/
  fault : Bool
  /-- S15 `FCAUSE`. -/
  fcause : BitVec 4
  /-- S16 `HALTED`. -/
  halted : Bool
  /-- S17 `EVLOG`, oldest event first. -/
  evlog : List Event
  /-- The named parameters of 00_scope.md R7. -/
  cfg : Params
  /-- The inputs of 10_state.md R33. -/
  host : HostPort
  deriving DecidableEq, Repr

/-- Why a step stops with a fault. It has NO constructor: the spec's own command faults are recorded in FAULT and FCAUSE and
DWED goes on (60_exceptions.md R113), so they are next states; nothing in the spec stops the machine. Safe. -/
inductive Fault
  deriving DecidableEq, Repr

/-- Why a step is refused. -/
inductive Refusal
  /-- Raised only by an arm of `exec` whose command has no meaning yet; no arm does. Safe: the step does not happen. -/
  | notModelled (mnemonic : String)
  deriving DecidableEq, Repr

/-- The outcome of a command or of a step of this machine. -/
abbrev Outcome := Host.Outcome State Fault Refusal

/-- The Reset column of 10_state.md R16 (70_reset_and_hazards.md R127). The parameters are R7's defaults. The host side offers
nothing and its NOW_MS level is 0, the model's choice (notes/assumptions/6.md). -/
def State.reset : State where
  offX := 0#16
  offY := 0#16
  calDone := 0b00#2
  sx := 0#12
  sy := 0#12
  lastEv := 0#32
  ledMode := 0#2
  borderD := false
  ledPin := false
  prevLvl := 0b111#3
  pwmR := 0#16
  pwmB := 0#16
  pixX := 0#8
  pixY := 0#8
  fault := false
  fcause := 0#4
  halted := false
  evlog := []
  cfg := { }
  host := { nowMs := 0#32, tickCmds := [], edgeCmds := [], turns := [] }

end Sys2Proof.Machine
end

