-- ==== Sys2Proof/Machine/Flags.lean ====
section
/-! DEFINITION. The status bits: CAL_DONE (10_state.md R20), the fault codes and FCAUSE's first-cause rule (60_exceptions.md
R113, R114), the names of LED_MODE's codes and its cycle (10_state.md R24). -/

namespace Sys2Proof.Machine

/-- The `CAL_DONE` bit of an axis: bit 0 X, bit 1 Y (10_state.md R16). -/
def calBit : Axis → BitVec 2
  | .x => 0b01#2
  | .y => 0b10#2

/-- Whether an axis has been calibrated since reset (10_state.md R20). -/
def isCalibrated (done : BitVec 2) (ax : Axis) : Bool := done &&& calBit ax != 0#2

/-- `CAL_DONE` with the axis's bit set (40_calibrate_sample.md R69, R70). -/
def setCalibrated (done : BitVec 2) (ax : Axis) : BitVec 2 := done ||| calBit ax

/-- The number of a fault code (60_exceptions.md R114). -/
def FaultCode.bits : FaultCode → BitVec 4
  | .illegalOpcode => 1#4
  | .reservedBits => 2#4
  | .reservedPin => 3#4
  | .recalibration => 4#4

/-- `FCAUSE` after a fault: the first fault since reset is kept (60_exceptions.md R113). -/
def firstCause (fault : Bool) (fcause : BitVec 4) (code : FaultCode) : BitVec 4 :=
  if fault then fcause else code.bits

/-- The name of a `LED_MODE` code (10_state.md R24). -/
def ledModeOf (code : BitVec 2) : LedMode :=
  if code = 0#2 then .off
  else if code = 1#2 then .red
  else if code = 2#2 then .blue
  else .both

/-- `(LED_MODE + 1) mod 4` (41_debounce.md R85). -/
def nextMode (code : BitVec 2) : BitVec 2 := code + 1#2

end Sys2Proof.Machine
end

