-- ==== Sys2Proof/Machine/Operands.lean ====
section
/-! DEFINITION. The arithmetic primitives of 00_scope.md R11 and the operand forms of 30_encoding.md R59 to R61: the ADC reading,
the offset-adjusted sum, the selected input, the levels and their falling edges, the elapsed time. -/

namespace Sys2Proof.Machine

/-- `floor_div(a, b)`: the largest q with q·b ≤ a (00_scope.md R11). -/
def floorDiv (a b : Nat) : Nat := a / b

/-- `clamp(v, lo, hi)` (00_scope.md R11). -/
def clamp (v lo hi : Int) : Int := if v < lo then lo else if hi < v then hi else v

/-- `raw = zext_32(word[11:0])`: unsigned, neither sign-extended nor scaled (30_encoding.md R59). -/
def rawValue (raw : Raw) : Int := (raw.toNat : Int)

/-- `raw + OFF`, the exact signed sum (40_calibrate_sample.md R74, R76, R78). -/
def adjusted (raw : Raw) (off : Offset) : Int := rawValue raw + off.toInt

/-- `CAL_MID - raw`, exact (40_calibrate_sample.md R69). -/
def offsetFor (p : Params) (raw : Raw) : Int := (p.calMid : Int) - rawValue raw

/-- `[A, B, C][pin]`; 0b11 selects no input (30_encoding.md R60; 41_debounce.md R88). -/
def inputOfPin (pin : BitVec 2) : Option Input :=
  if pin = 0b00#2 then some .a
  else if pin = 0b01#2 then some .b
  else if pin = 0b10#2 then some .c
  else none

/-- The bit of a level word that belongs to an input (30_encoding.md R61). -/
def levelBit : Input → Nat
  | .a => 0
  | .b => 1
  | .c => 2

/-- `PREV_LVL AND (NOT lvl) AND 0b111`: 1 where released became pressed (41_debounce.md R80, R89). -/
def fallingEdges (prev lvl : Levels) : Levels := prev &&& ~~~lvl &&& 0b111#3

/-- Whether the input is among the falls. -/
def hasFall (fall : Levels) (p : Input) : Bool := fall.getLsbD (levelBit p)

/-- The order in which LEVELS gates the inputs: A, then B, then C (41_debounce.md R89; 60_exceptions.md R119). -/
def gateOrder : List Input := [.a, .b, .c]

/-- `elapsed = (now − LAST_EV) mod 2^32` (41_debounce.md R81). -/
def elapsedSince (last now : Time) : Nat := (now - last).toNat

end Sys2Proof.Machine
end

