-- ==== Sys2Proof/Machine/Ops.lean ====
section
/-! DEFINITION. The shared operations over the state: `now`, `emit`, `raise Fault(code)` (the block's whole "trap entry",
60_exceptions.md R113, R115; it has no trap return, R116), `halt`, RST, the offsets by axis, the debounce gate, the
command port, and the output ports. -/

namespace Sys2Proof.Machine

/-- `now`: the NOW_MS input sampled when the command is performed (00_scope.md R12). -/
def State.now (s : State) : Time := s.host.nowMs

/-- `emit(E)`: append the event to the log (00_scope.md R12; 10_state.md R32). -/
def emit (e : Event) (s : State) : State := { s with evlog := s.evlog ++ [e] }

/-- `raise Fault(code)`: FCAUSE if this is the first fault, FAULT, and nothing else (60_exceptions.md R113). DWED goes on with
the next command, so it is a next state. -/
def raiseFault (code : FaultCode) (s : State) : State :=
  { s with fault := true, fcause := firstCause s.fault s.fcause code }

/-- `halt` (60_exceptions.md R121). -/
def halt (s : State) : State := { s with halted := true }

/-- RST: every element at its reset value, the log a fresh one (70_reset_and_hazards.md R127). The parameters and the inputs are
no elements of DWED and stay (notes/assumptions/5.md). -/
def resetElements (s : State) : State := { State.reset with cfg := s.cfg, host := s.host }

/-- The offset register of an axis (10_state.md R19). -/
def offsetOf (s : State) : Axis → Offset
  | .x => s.offX
  | .y => s.offY

/-- Write the offset register of an axis (10_state.md R19). -/
def setOffset (ax : Axis) (v : Offset) (s : State) : State :=
  match ax with
  | .x => { s with offX := v }
  | .y => { s with offY := v }

/-- Write `CAL_DONE`. -/
def setCalDone (v : BitVec 2) (s : State) : State := { s with calDone := v }

/-- `gate(now)` of 41_debounce.md R82: none when the edge is ignored (no state change at all), and when it is accepted the
state with the window restarted. -/
def gate (s : State) : Option State :=
  if elapsedSince s.lastEv s.now ≤ s.cfg.debounceMs then none
  else some { s with lastEv := s.now }

/-- The words an agent is offering (10_state.md R33). -/
def offered (s : State) : Agent → List Word
  | .tick => s.host.tickCmds
  | .edge => s.host.edgeCmds

/-- The rest of the schedule, and NOW_MS as sampled at this moment (10_state.md R33). -/
def nextTurn (now : Time) (rest : List Turn) (s : State) : State :=
  { s with host := { s.host with nowMs := now, turns := rest } }

/-- The agent's oldest offered command is consumed. -/
def setOffered (agent : Agent) (rest : List Word) (s : State) : State :=
  match agent with
  | .tick => { s with host := { s.host with tickCmds := rest } }
  | .edge => { s with host := { s.host with edgeCmds := rest } }

/-- The output ports (10_state.md R34), beside the event stream `EVLOG`. -/
structure Outputs where
  pwmR : BitVec 16
  pwmB : BitVec 16
  pixX : BitVec 8
  pixY : BitVec 8
  ledMode : BitVec 2
  borderD : BitVec 1
  ledPin : BitVec 1
  fault : BitVec 1
  fcause : BitVec 4
  halted : BitVec 1
  /-- The `BOOT_REQ` line: "HALTED doubles as the bootloader request" (R34). -/
  bootReq : BitVec 1
  deriving DecidableEq, Repr

/-- The output ports' current values (10_state.md R34). -/
def outputs (s : State) : Outputs where
  pwmR := s.pwmR
  pwmB := s.pwmB
  pixX := s.pixX
  pixY := s.pixY
  ledMode := s.ledMode
  borderD := BitVec.ofBool s.borderD
  ledPin := BitVec.ofBool s.ledPin
  fault := BitVec.ofBool s.fault
  fcause := s.fcause
  halted := BitVec.ofBool s.halted
  bootReq := BitVec.ofBool s.halted

/-- A call of a collaborator (10_state.md R32, second column). -/
inductive Call
  /-- PWM `set_duty(channel, value)`. -/
  | setDuty (ch : Channel) (v : Nat)
  /-- display `clear()`. -/
  | clear
  /-- display `draw_rect(x, y, w, h, filled)`. -/
  | drawRect (r : Rect) (filled : Bool)
  /-- display `flush()`. -/
  | flush
  /-- digital I/O `write_pin(id, bool)`. -/
  | writePin (v : Bool)
  /-- system `enter_bootloader()`. -/
  | enterBootloader
  deriving DecidableEq, Repr

/-- The collaborator calls an event stands for (10_state.md R32); a border's rectangles are the open parameter of R110. -/
def Event.calls : Event → List Call
  | .setDuty ch v => [.setDuty ch v]
  | .clear => [.clear]
  | .border d => (Config.borderRects d).map (fun r => .drawRect r (Config.borderFilled d))
  | .rect x y w h f => [.drawRect ⟨x, y, w, h⟩ f]
  | .flush => [.flush]
  | .pin v => [.writePin v]
  | .boot => [.enterBootloader]

end Sys2Proof.Machine
end

