-- ==== Sys2Proof/Machine/Calibrate.lean ====
section
/-! DEFINITION. CALX and CALY (40_calibrate_sample.md R69, R70). -/

namespace Sys2Proof.Machine

/-- Capture the offset of an axis once: a second capture raises RECALIBRATION and leaves the offset (R69, R70; 10_state.md
R20). -/
def captureOffset (ax : Axis) (raw : Raw) (s : State) : State :=
  if isCalibrated s.calDone ax then raiseFault .recalibration s
  else setCalDone (setCalibrated s.calDone ax) (setOffset ax (BitVec.ofInt 16 (offsetFor s.cfg raw)) s)

/-- CALX (R69). -/
def execCalx (raw : Raw) (s : State) : Outcome := .next (captureOffset .x raw s)

/-- CALY (R70). -/
def execCaly (raw : Raw) (s : State) : Outcome := .next (captureOffset .y raw s)

end Sys2Proof.Machine
end

