-- ==== Sys2Proof/Machine/Edge.lean ====
section
/-! DEFINITION. EDGE and LEVELS: the dispatch of an accepted edge (41_debounce.md R85 to R87) and the two commands
(R88, R89). -/

namespace Sys2Proof.Machine

/-- Input A: advance the mode, nothing else (R85). -/
def advanceMode (s : State) : State := { s with ledMode := nextMode s.ledMode }

/-- Input B: `emit(BOOT); halt` (R86). -/
def requestBoot (s : State) : State := halt (emit .boot s)

/-- `LED_PIN <- 1 − LED_PIN`, then `emit(PIN(LED_PIN))` (R87, first thing). -/
def togglePin (s : State) : State := emit (.pin (!s.ledPin)) { s with ledPin := !s.ledPin }

/-- `BORDER_D <- 1 − BORDER_D`, then `emit(BORDER(BORDER_D))` with the new value (R87, second and third). -/
def toggleBorder (s : State) : State := emit (.border (!s.borderD)) { s with borderD := !s.borderD }

/-- `dispatch(p)` (R87). -/
def dispatch (p : Input) (s : State) : State :=
  match p with
  | .a => advanceMode s
  | .b => requestBoot s
  | .c => toggleBorder (togglePin s)

/-- One edge through the gate (R88): ignored, nothing changes; accepted, it is dispatched. -/
def presentEdge (p : Input) (s : State) : State :=
  match gate s with
  | none => s
  | some s' => dispatch p s'

/-- The loop of LEVELS over the inputs still to gate (R89); an accepted edge that halts ends it (60_exceptions.md R120). -/
def gateFalls (fall : Levels) : List Input → State → State
  | [], s => s
  | p :: ps, s =>
    if hasFall fall p then
      match gate s with
      | none => gateFalls fall ps s
      | some s' =>
        if (dispatch p s').halted then dispatch p s'
        else gateFalls fall ps (dispatch p s')
    else gateFalls fall ps s

/-- `PREV_LVL <- lvl` (R89). -/
def setPrevLvl (lvl : Levels) (s : State) : State := { s with prevLvl := lvl }

/-- EDGE (R88). No decoded EDGE carries pin 0b11; a term that does raises code 3, the exception R88 lists
(notes/assumptions/7.md). -/
def execEdge (pin : BitVec 2) (s : State) : Outcome :=
  match inputOfPin pin with
  | some p => .next (presentEdge p s)
  | none => .next (raiseFault .reservedPin s)

/-- LEVELS (R89). -/
def execLevels (lvl : Levels) (s : State) : Outcome :=
  .next (gateFalls (fallingEdges s.prevLvl lvl) gateOrder (setPrevLvl lvl s))

end Sys2Proof.Machine
end

