-- ==== Sys2Proof/Machine/Mapper.lean ====
section
/-! DEFINITION. MAP: the intensity function (42_pwm_map.md R96) and the mode dispatch (R97, R100). -/

namespace Sys2Proof.Machine

/-- `duty(s) = min(floor_div(clamp(s, 0, ADC_MAX) * PWM_PERIOD, ADC_MAX), PWM_PERIOD)` (R96). -/
def duty (p : Params) (s : Nat) : Nat :=
  min (floorDiv ((clamp (s : Int) 0 p.adcMax).toNat * p.pwmPeriod) p.adcMax) p.pwmPeriod

/-- What each channel gets: its duty or a forced zero (R100). -/
def channelDuties (m : LedMode) (dx dy : Nat) : Nat × Nat :=
  match m with
  | .off => (0, 0)
  | .red => (dx, 0)
  | .blue => (0, dy)
  | .both => (dx, dy)

/-- The pair `(r, b)` MAP applies: red follows X, blue follows Y (R97). -/
def mappedDuties (s : State) : Nat × Nat :=
  channelDuties (ledModeOf s.ledMode) (duty s.cfg s.sx.toNat) (duty s.cfg s.sy.toNat)

/-- Write both duty registers, then emit both events, red first (R97). -/
def applyDuties (rb : Nat × Nat) (s : State) : State :=
  emit (.setDuty .b rb.2)
    (emit (.setDuty .r rb.1) { s with pwmR := BitVec.ofNat 16 rb.1, pwmB := BitVec.ofNat 16 rb.2 })

/-- MAP (R97). -/
def execMap (s : State) : Outcome := .next (applyDuties (mappedDuties s) s)

end Sys2Proof.Machine
end

