-- ==== Sys2Proof/Machine/Pixel.lean ====
section
/-! DEFINITION. PIX: the coordinate functions (43_pixel.md R104) and one tick's render (R105). -/

namespace Sys2Proof.Machine

/-- `WX = DISP_W − MARKER` (R104). -/
def drawableW (p : Params) : Nat := p.dispW - p.marker

/-- `WY = DISP_H − MARKER` (R104). -/
def drawableH (p : Params) : Nat := p.dispH - p.marker

/-- `px(sx)` (R104). -/
def px (p : Params) (sx : Nat) : Nat :=
  (clamp (floorDiv (sx * drawableW p) p.adcMax : Nat) 0 (drawableW p)).toNat

/-- `py(sy)`, Y inverted (R104). -/
def py (p : Params) (sy : Nat) : Nat :=
  (clamp (floorDiv ((p.adcMax - sy) * drawableH p) p.adcMax : Nat) 0 (drawableH p)).toNat

/-- Write the coordinate, then `CLEAR, BORDER(BORDER_D), RECT(x, y, MARKER, MARKER, 1), FLUSH` (R105). -/
def renderAt (x y : Nat) (s : State) : State :=
  emit .flush
    (emit (.rect x y s.cfg.marker s.cfg.marker true)
      (emit (.border s.borderD)
        (emit .clear { s with pixX := BitVec.ofNat 8 x, pixY := BitVec.ofNat 8 y })))

/-- PIX (R105). -/
def execPix (s : State) : Outcome := .next (renderAt (px s.cfg s.sx.toNat) (py s.cfg s.sy.toNat) s)

end Sys2Proof.Machine
end

