-- ==== Sys2Proof/Machine/Sampling.lean ====
section
/-! DEFINITION. SAMPX and SAMPY (40_calibrate_sample.md R74, R76). The asymmetry is the spec's (R77; 90_conflicts.md C1). -/

namespace Sys2Proof.Machine

/-- The hold filter: a sum in 0..ADC_MAX is accepted, any other leaves `SX` (R74, R75). -/
def holdSample (raw : Raw) (s : State) : State :=
  if 0 ≤ adjusted raw s.offX ∧ adjusted raw s.offX ≤ (s.cfg.adcMax : Int) then
    { s with sx := BitVec.ofInt 12 (adjusted raw s.offX) }
  else s

/-- The Y sample: the sum clamped to 0..ADC_MAX, never held (R76). -/
def clampSample (raw : Raw) (s : State) : State :=
  { s with sy := BitVec.ofInt 12 (clamp (adjusted raw s.offY) 0 s.cfg.adcMax) }

/-- SAMPX (R74). -/
def execSampx (raw : Raw) (s : State) : Outcome := .next (holdSample raw s)

/-- SAMPY (R76). -/
def execSampy (raw : Raw) (s : State) : Outcome := .next (clampSample raw s)

end Sys2Proof.Machine
end

