-- ==== Sys2Proof/Machine/Dispatch.lean ====
section
/-! DEFINITION. `perform` of a decoded command: one arm per constructor of `Instr` (30_encoding.md R62, column Semantics). -/

namespace Sys2Proof.Machine

def exec (i : Instr) (s : State) : Host.Outcome State Fault Refusal :=
  match i with
  | .calx raw => Sys2Proof.Machine.execCalx raw s
  | .caly raw => Sys2Proof.Machine.execCaly raw s
  | .sampx raw => Sys2Proof.Machine.execSampx raw s
  | .sampy raw => Sys2Proof.Machine.execSampy raw s
  | .edge pin => Sys2Proof.Machine.execEdge pin s
  | .levels lvl => Sys2Proof.Machine.execLevels lvl s
  | .map => Sys2Proof.Machine.execMap s
  | .pix => Sys2Proof.Machine.execPix s

end Sys2Proof.Machine
end

