-- ==== Sys2Proof/Machine/Perform.lean ====
section
/-! DEFINITION. Performing a command word, and one turn of the outside world: the HALTED check, then decode, then perform
(30_encoding.md R64; 60_exceptions.md R119, R121). Step.lean only calls this. -/

namespace Sys2Proof.Machine

/-- The fault code of an illegal word (30_encoding.md R63). -/
def illegalCode : Illegal → FaultCode
  | .illegalOpcode => .illegalOpcode
  | .reservedBits => .reservedBits
  | .reservedPin => .reservedPin

/-- `perform(word, now)`: decode, then the rule of the command, or the decode fault (30_encoding.md R64). -/
def performWord (w : Word) (s : State) : Outcome :=
  match decode w with
  | .ok i => exec i s
  | .error e => .next (raiseFault (illegalCode e) s)

/-- An agent's oldest offered command reaches DWED while NOW_MS is `now`. While HALTED is 1 it is "not decoded, not
performed and not consumed" (60_exceptions.md R121; notes/assumptions/3.md). With nothing offered nothing happens
(notes/assumptions/4.md). `exec` itself does not look at HALTED first (notes/assumptions/15.md). -/
def performTurn (agent : Agent) (now : Time) (rest : List Turn) (s : State) : Outcome :=
  if s.halted then .next (nextTurn now rest s)
  else
    match offered s agent with
    | [] => .next (nextTurn now rest s)
    | w :: ws => performWord w (setOffered agent ws (nextTurn now rest s))

/-- The next turn of the schedule. RST acts between commands (70_reset_and_hazards.md R129); with no turn left DWED "holds its
state" (60_exceptions.md R126; notes/assumptions/4.md). -/
def takeTurn (s : State) : Outcome :=
  match s.host.turns with
  | [] => .next s
  | .rst :: rest => .next (resetElements (nextTurn s.host.nowMs rest s))
  | .perform agent now :: rest => performTurn agent now rest s

/-- The host presents one more command, to be performed next: at the head of the tick agent's offers, with a turn for that
agent at the present NOW_MS (notes/assumptions/6.md). The agent's tag is read by no rule (10_state.md R33). -/
def presentNext (w : Word) (s : State) : State :=
  { s with
    host :=
      { s.host with
        tickCmds := w :: s.host.tickCmds
        turns := .perform .tick s.host.nowMs :: s.host.turns } }

end Sys2Proof.Machine
end

