-- ==== Sys2Proof/Machine/Step.lean ====
section
/-! DEFINITION. One step of the machine, and how the host places its next command. -/

namespace Sys2Proof.Machine

/-- One step: one turn of the outside world (20_memory.md R44). -/
def step (s : State) : Host.Outcome State Fault Refusal := takeTurn s

/-- The command word made of the low `nbits` bits of `w`, presented so that the next step performs it. DWED fetches nothing
(10_state.md R18): the host presents each command (notes/assumptions/6.md). -/
def State.withFetchWord (s : State) (nbits w : Nat) : State := presentNext (BitVec.ofNat 32 (w % 2 ^ nbits)) s

end Sys2Proof.Machine
end

