-- ==== Sys2Proof/Machine/Assembler.lean ====
section
/-! DEFINITION. The assembler of 30_encoding.md section 5: one line of text (R66) and the pseudo-instructions (R67). It makes the
words a host presents; the machine does not use it. The lexical points R66 leaves open are notes/assumptions/12.md. -/

namespace Sys2Proof.Machine

/-- The pseudo-instructions (30_encoding.md R67). -/
inductive Pseudo
  | cal (rx ry : Raw)
  | tick (rx ry : Raw)
  deriving DecidableEq, Repr

/-- The expansion of a pseudo-instruction, in the order shown (30_encoding.md R67). -/
def Pseudo.expand : Pseudo → List Instr
  | .cal rx ry => [.calx rx, .caly ry]
  | .tick rx ry => [.sampx rx, .sampy ry, .pix, .map]

/-- The words a pseudo-instruction stands for. -/
def Pseudo.words (p : Pseudo) : List Word := p.expand.map encode

/-- A line's commands, and the `@t=<ms>` annotation where it has one: `now` is not part of the word (R66). -/
structure AsmLine where
  cmds : List Instr
  time : Option Time
  deriving DecidableEq, Repr

/-- `;` starts a comment that runs to the end of the line (R66). -/
def stripComment (cs : List Char) : List Char := cs.takeWhile (· != ';')

/-- What separates a mnemonic and its operands: blanks and commas. -/
def isSeparator (c : Char) : Bool := c == ' ' || c == '\t' || c == ','

/-- The words of a line; `word` is the word being read, last character first. -/
def tokensFrom (word : List Char) : List Char → List (List Char)
  | [] => if word.isEmpty then [] else [word.reverse]
  | c :: cs =>
    if isSeparator c then
      if word.isEmpty then tokensFrom [] cs else word.reverse :: tokensFrom [] cs
    else tokensFrom (c :: word) cs

/-- The value of a digit. -/
def digitValue (c : Char) : Option Nat :=
  if '0' ≤ c ∧ c ≤ '9' then some (c.toNat - '0'.toNat)
  else if 'a' ≤ c ∧ c ≤ 'f' then some (c.toNat - 'a'.toNat + 10)
  else if 'A' ≤ c ∧ c ≤ 'F' then some (c.toNat - 'A'.toNat + 10)
  else none

/-- Digits read on from a value so far. -/
def digitsFrom (base acc : Nat) : List Char → Option Nat
  | [] => some acc
  | c :: cs =>
    match digitValue c with
    | none => none
    | some d => if d < base then digitsFrom base (acc * base + d) cs else none

/-- A number of at least one digit in a base. -/
def number (base : Nat) (cs : List Char) : Option Nat := if cs.isEmpty then none else digitsFrom base 0 cs

/-- A raw operand: decimal 0..4095, or `0x` hex up to 0xFFF; "an assembler rejects an operand outside its range and does not
wrap it" (R66). -/
def rawOperand (cs : List Char) : Option Raw :=
  let value :=
    match cs with
    | '0' :: 'x' :: ds => number 16 ds
    | ds => number 10 ds
  value.bind fun n => if n ≤ 4095 then some (BitVec.ofNat 12 n) else none

/-- A level operand: 3-bit binary `0bCBA`, or decimal 0..7 (R66). -/
def lvlOperand (cs : List Char) : Option Levels :=
  let value :=
    match cs with
    | '0' :: 'b' :: ds => if ds.length = 3 then number 2 ds else none
    | ds => number 10 ds
  value.bind fun n => if n ≤ 7 then some (BitVec.ofNat 3 n) else none

/-- An input letter (R66, R60). -/
def pinOperand : List Char → Option (BitVec 2)
  | ['A'] => some 0b00#2
  | ['B'] => some 0b01#2
  | ['C'] => some 0b10#2
  | _ => none

/-- The annotation `@t=<ms>` (R66), of a 32-bit time. -/
def timeAnnotation : List Char → Option Time
  | '@' :: 't' :: '=' :: ds => (number 10 ds).bind fun n => if n < 2 ^ 32 then some (BitVec.ofNat 32 n) else none
  | _ => none

/-- A mnemonic "in any case" (R66), as one of the names of R62 and R67. -/
def upperCase (cs : List Char) : List Char := cs.map Char.toUpper

/-- The commands a mnemonic and its operands stand for (R66, R67). -/
def commandsOf (mnemonic : List Char) (operands : List (List Char)) : Option (List Instr) :=
  match upperCase mnemonic, operands with
  | ['C', 'A', 'L', 'X'], [r] => (rawOperand r).map fun v => [.calx v]
  | ['C', 'A', 'L', 'Y'], [r] => (rawOperand r).map fun v => [.caly v]
  | ['S', 'A', 'M', 'P', 'X'], [r] => (rawOperand r).map fun v => [.sampx v]
  | ['S', 'A', 'M', 'P', 'Y'], [r] => (rawOperand r).map fun v => [.sampy v]
  | ['E', 'D', 'G', 'E'], [p] => (pinOperand p).map fun v => [.edge v]
  | ['L', 'E', 'V', 'E', 'L', 'S'], [l] => (lvlOperand l).map fun v => [.levels v]
  | ['M', 'A', 'P'], [] => some [.map]
  | ['P', 'I', 'X'], [] => some [.pix]
  | ['C', 'A', 'L'], [x, y] =>
    (rawOperand x).bind fun rx => (rawOperand y).map fun ry => Pseudo.expand (.cal rx ry)
  | ['T', 'I', 'C', 'K'], [x, y] =>
    (rawOperand x).bind fun rx => (rawOperand y).map fun ry => Pseudo.expand (.tick rx ry)
  | _, _ => none

/-- The operands of a line, and its annotation if the last word is one. -/
def splitAnnotation : List (List Char) → Option (List (List Char) × Option Time)
  | [] => some ([], none)
  | ('@' :: cs) :: rest => if rest.isEmpty then (timeAnnotation ('@' :: cs)).map fun t => ([], some t) else none
  | w :: rest => (splitAnnotation rest).map fun (ops, t) => (w :: ops, t)

/-- One line of assembler text (R66): none where the assembler rejects it; a blank or comment line has no command. DESIGN CHOICE
(notes/assumptions/12.md): a pseudo-instruction's line may carry `@t=` too, as one time for all its commands; R66 speaks of the
`now` of one command, and R67 of none. -/
def assembleLine (line : List Char) : Option AsmLine :=
  match tokensFrom [] (stripComment line) with
  | [] => some ⟨[], none⟩
  | m :: rest =>
    (splitAnnotation rest).bind fun (ops, t) => (commandsOf m ops).map fun cmds => ⟨cmds, t⟩

end Sys2Proof.Machine
end

