-- ==== Sys2Proof/Safety.lean ====
section
/-! DEFINITION. The terms claims are stated in: how a run ends (60_exceptions.md R122), "gone wrong" (R113), the host duties
that are premises of claims (70_reset_and_hazards.md R133), the bounds the registers and the events keep, and the log
replayed into output values. -/

namespace Sys2Proof.Machine

/-- `n` steps of the machine. -/
abbrev run (n : Nat) (s : State) : Outcome := Host.Core.run Sys2Proof.core n s

/-- `elapsed = (now − LAST_EV) mod 2^32` in plain numbers (41_debounce.md R81), for the command performed in `s`. -/
def elapsed (s : State) : Nat := (s.host.nowMs.toNat + 2 ^ 32 - s.lastEv.toNat) % 2 ^ 32

/-- The input of bit `k` was released in PREV_LVL and is pressed in `lvl` (41_debounce.md R80). -/
def fell (s : State) (lvl : Levels) (k : Nat) : Bool := s.prevLvl.getLsbD k && !lvl.getLsbD k

/-- The same state with another level of the NOW_MS input. -/
def atTime (now : Time) (s : State) : State := { s with host := { s.host with nowMs := now } }

/-- The elements of 10_state.md R16 agree: the two states differ at most in the host side. -/
def SameElements (s t : State) : Prop := t = { s with host := t.host }

/-- A state that has "gone wrong" (60_exceptions.md R113). -/
abbrev GoneWrong (s : State) : Prop := s.fault = true

/-- The host has presented its whole command sequence and DWED has performed it (60_exceptions.md R122). -/
abbrev Drained (s : State) : Prop := s.halted = false ∧ s.host.tickCmds = [] ∧ s.host.edgeCmds = []

/-- A good end of a run, for a claim that expects the halt or does not (60_exceptions.md R122). -/
abbrev GoodEnd (expectsHalt : Bool) (s : State) : Prop :=
  s.fault = false ∧ (Drained s ∨ (s.halted = true ∧ expectsHalt = true))

/-- No RST among the next `n` turns. -/
abbrev NoReset (n : Nat) (s : State) : Prop := Turn.rst ∉ s.host.turns.take n

/-- A word of opcode `op` with a 1 among the reserved bits is performed as fault code 2 and nothing else (30_encoding.md R63). -/
def RecordsReservedBits (op : BitVec 4) (reserved : Word) : Prop :=
  ∀ (w : Word) (s : State), w.extractLsb' 28 4 = op → w &&& reserved ≠ 0#32 →
    performWord w s = .next { s with fault := true, fcause := if s.fault = true then s.fcause else 2#4 }

/-- The clock duty of 70_reset_and_hazards.md R133 over a schedule without RST: each NOW_MS is a true time mod 2^32, the true
times do not decrease from `start` on, and none is past `limit`. -/
def TruthfulClock (start limit : Nat) : List Turn → Prop
  | [] => True
  | .rst :: _ => False
  | .perform _ now :: rest =>
    ∃ t, start ≤ t ∧ t ≤ limit ∧ now = BitVec.ofNat 32 t ∧ TruthfulClock t limit rest

/-- How many of the next `n` steps accept an edge. An accepted edge is one that moves LAST_EV: only the gate writes it, and an
edge at elapsed 0 is ignored (41_debounce.md R82, R84). -/
def acceptedEdges : Nat → State → Nat
  | 0, _ => 0
  | n + 1, s =>
    match step s with
    | .next t => (if t.lastEv = s.lastEv then 0 else 1) + acceptedEdges n t
    | .fault _ => 0
    | .refused _ => 0

/-- What the registers hold in every state a run reaches from legal parameters: the offsets of 10_state.md R19, an axis not yet
calibrated with offset 0 (R16, R20), the duties of R28 and the coordinates of R29. -/
structure RegistersBounded (s : State) : Prop where
  legal : s.cfg.Legal
  offX_low : (s.cfg.calMid : Int) - 4095 ≤ s.offX.toInt
  offX_high : s.offX.toInt ≤ s.cfg.calMid
  offY_low : (s.cfg.calMid : Int) - 4095 ≤ s.offY.toInt
  offY_high : s.offY.toInt ≤ s.cfg.calMid
  offX_uncalibrated : s.calDone.getLsbD 0 = false → s.offX = 0#16
  offY_uncalibrated : s.calDone.getLsbD 1 = false → s.offY = 0#16
  pwmR_le : s.pwmR.toNat ≤ s.cfg.pwmPeriod
  pwmB_le : s.pwmB.toNat ≤ s.cfg.pwmPeriod
  pixX_le : s.pixX.toNat + s.cfg.marker ≤ s.cfg.dispW
  pixY_le : s.pixY.toNat + s.cfg.marker ≤ s.cfg.dispH

/-- FAULT and FCAUSE agree, and the codes 5..15 are never written (60_exceptions.md R114; 10_state.md R37). -/
structure FaultRecordSound (s : State) : Prop where
  cause_iff : s.fault = true ↔ s.fcause ≠ 0#4
  cause_le : s.fcause.toNat ≤ 4

/-- An event is a request the collaborators accept: a duty in 0..PWM_PERIOD (10_state.md R32), a filled MARKER×MARKER square
wholly inside the display (43_pixel.md R108). -/
def EventInRange (p : Params) : Event → Prop
  | .setDuty _ v => v ≤ p.pwmPeriod
  | .clear => True
  | .border _ => True
  | .rect x y w h f => w = p.marker ∧ h = p.marker ∧ f = true ∧ x + w ≤ p.dispW ∧ y + h ≤ p.dispH
  | .flush => True
  | .pin _ => True
  | .boot => True

/-- The output values a collaborator that hears the event stream can know. -/
structure Heard where
  pwmR : Nat := 0
  pwmB : Nat := 0
  pixX : Nat := 0
  pixY : Nat := 0
  pin : Bool := false
  border : Bool := false
  boot : Bool := false
  deriving DecidableEq, Repr

/-- What one more event tells (10_state.md R32). -/
def Heard.hear (o : Heard) : Event → Heard
  | .setDuty .r v => { o with pwmR := v }
  | .setDuty .b v => { o with pwmB := v }
  | .clear => o
  | .border d => { o with border := d }
  | .rect x y _ _ _ => { o with pixX := x, pixY := y }
  | .flush => o
  | .pin v => { o with pin := v }
  | .boot => { o with boot := true }

/-- The event log replayed from the reset outputs. -/
def replay (log : List Event) : Heard := log.foldl Heard.hear { }

/-- The output values of a state, as numbers. -/
def heardNow (s : State) : Heard where
  pwmR := s.pwmR.toNat
  pwmB := s.pwmB.toNat
  pixX := s.pixX.toNat
  pixY := s.pixY.toNat
  pin := s.ledPin
  border := s.borderD
  boot := s.halted

/-- The event log tells the outputs: every event is in range, and replaying the log gives the output elements. -/
structure LogTellsOutputs (s : State) : Prop where
  legal : s.cfg.Legal
  in_range : ∀ e ∈ s.evlog, EventInRange s.cfg e
  replayed : replay s.evlog = heardNow s

end Sys2Proof.Machine
end

