-- ==== Sys2Proof/Certificates/Slice0/Obligations.lean ====
section
/-! DEFINITION. The statements for the provers. Each docstring names the rule of spec/ it formalises, or the log entry of the
model's choice it rests on. -/

open Sys2Proof Sys2Proof.Machine

/-! ### Encoding -/

/-- 30_encoding.md R58 to R62, R66: no operand bit is dropped, for every well-formed command and every operand. -/
def Obligations.DecodeOfEncodeIsTheCommand : Prop :=
  ∀ i : Instr, WellFormed i → decode (encode i) = .ok i

/-- 30_encoding.md R57, R62: each accepted word is the one word of its command, and the command is well formed. -/
def Obligations.AcceptedWordIsEncodeOfItsCommand : Prop :=
  ∀ (w : Word) (i : Instr), decode w = .ok i → WellFormed i ∧ encode i = w

/-- 30_encoding.md R64, with the masks of R62 as the reserved slices of R58 and the operands as the slices of R59 to R61: the
order of the checks, the fault each records, the dispatch, and the HALTED check before all of them. That an offer to a halted
DWED takes the turn and NOW_MS and answers a next state is the model's (notes/assumptions/2.md and 3.md). -/
def Obligations.DecodeFollowsItsFixedOrder : Prop :=
  ∀ w : Word,
    let op := (w.extractLsb' 28 4).toNat
    let reserved :=
      if op ≤ 4 then w.extractLsb' 12 16 ≠ 0#16
      else if op = 5 then w.extractLsb' 2 26 ≠ 0#26
      else if op = 6 then w.extractLsb' 3 25 ≠ 0#25
      else w.extractLsb' 0 28 ≠ 0#28
    (op = 0 ∨ 9 ≤ op → decode w = .error .illegalOpcode) ∧
    (1 ≤ op → op ≤ 8 → reserved → decode w = .error .reservedBits) ∧
    (op = 5 → ¬reserved → w.extractLsb' 0 2 = 0b11#2 → decode w = .error .reservedPin) ∧
    (op = 1 → ¬reserved → decode w = .ok (.calx (w.extractLsb' 0 12))) ∧
    (op = 2 → ¬reserved → decode w = .ok (.caly (w.extractLsb' 0 12))) ∧
    (op = 3 → ¬reserved → decode w = .ok (.sampx (w.extractLsb' 0 12))) ∧
    (op = 4 → ¬reserved → decode w = .ok (.sampy (w.extractLsb' 0 12))) ∧
    (op = 5 → ¬reserved → w.extractLsb' 0 2 ≠ 0b11#2 → decode w = .ok (.edge (w.extractLsb' 0 2))) ∧
    (op = 6 → ¬reserved → decode w = .ok (.levels (w.extractLsb' 0 3))) ∧
    (op = 7 → ¬reserved → decode w = .ok .map) ∧
    (op = 8 → ¬reserved → decode w = .ok .pix) ∧
    ∀ s : State,
      let recorded (code : BitVec 4) : Outcome :=
        .next { s with fault := true, fcause := if s.fault = true then s.fcause else code }
      (decode w = .error .illegalOpcode → performWord w s = recorded 1#4) ∧
      (decode w = .error .reservedBits → performWord w s = recorded 2#4) ∧
      (decode w = .error .reservedPin → performWord w s = recorded 3#4) ∧
      (∀ i, decode w = .ok i → performWord w s = exec i s) ∧
      ∀ agent now rest, s.halted = true → s.host.turns = .perform agent now :: rest →
        step s = .next { s with host := ⟨now, s.host.tickCmds, s.host.edgeCmds, rest⟩ }

/-- 30_encoding.md R62: "A word selects a command when (word AND mask) = match and, for EDGE, pin ≠ 0b11". -/
def Obligations.WordSelectsCommandByMaskAndMatch : Prop :=
  ∀ w : Word,
    ((∃ raw, decode w = .ok (.calx raw)) ↔ w &&& 0xFFFFF000#32 = 0x10000000#32) ∧
    ((∃ raw, decode w = .ok (.caly raw)) ↔ w &&& 0xFFFFF000#32 = 0x20000000#32) ∧
    ((∃ raw, decode w = .ok (.sampx raw)) ↔ w &&& 0xFFFFF000#32 = 0x30000000#32) ∧
    ((∃ raw, decode w = .ok (.sampy raw)) ↔ w &&& 0xFFFFF000#32 = 0x40000000#32) ∧
    ((∃ pin, decode w = .ok (.edge pin)) ↔
      w &&& 0xFFFFFFFC#32 = 0x50000000#32 ∧ w.extractLsb' 0 2 ≠ 0b11#2) ∧
    ((∃ lvl, decode w = .ok (.levels lvl)) ↔ w &&& 0xFFFFFFF8#32 = 0x60000000#32) ∧
    (decode w = .ok .map ↔ w &&& 0xFFFFFFFF#32 = 0x70000000#32) ∧
    (decode w = .ok .pix ↔ w &&& 0xFFFFFFFF#32 = 0x80000000#32) ∧
    (decode w = .error .illegalOpcode ↔ w.extractLsb' 28 4 = 0#4 ∨ 9#4 ≤ w.extractLsb' 28 4) ∧
    ∀ s, decode w = .error .illegalOpcode →
      performWord w s = .next { s with fault := true, fcause := if s.fault = true then s.fcause else 1#4 }

/-- 30_encoding.md R68, both tables: each source line is the one command whose word is listed, the word decodes to it, and each
illegal word records its fault code. -/
def Obligations.WorkedEncodingsDecodeAsListed : Prop :=
  let listed (line : List Char) (w : Word) (i : Instr) : Prop :=
    assembleLine line = some ⟨[i], none⟩ ∧ encode i = w ∧ decode w = .ok i
  let illegal (w : Word) (code : BitVec 4) : Prop :=
    (match decode w with | .ok _ => 0#4 | .error e => (illegalCode e).bits) = code
  listed ['C', 'A', 'L', 'X', ' ', '2', '0', '4', '8'] 0x10000800#32 (.calx 2048#12) ∧
  listed ['C', 'A', 'L', 'Y', ' ', '0'] 0x20000000#32 (.caly 0#12) ∧
  listed ['S', 'A', 'M', 'P', 'X', ' ', '4', '0', '9', '0'] 0x30000FFA#32 (.sampx 4090#12) ∧
  listed ['S', 'A', 'M', 'P', 'Y', ' ', '4', '0', '9', '5'] 0x40000FFF#32 (.sampy 4095#12) ∧
  listed ['E', 'D', 'G', 'E', ' ', 'A'] 0x50000000#32 (.edge 0b00#2) ∧
  listed ['E', 'D', 'G', 'E', ' ', 'B'] 0x50000001#32 (.edge 0b01#2) ∧
  listed ['E', 'D', 'G', 'E', ' ', 'C'] 0x50000002#32 (.edge 0b10#2) ∧
  listed ['L', 'E', 'V', 'E', 'L', 'S', ' ', '0', 'b', '1', '1', '0'] 0x60000006#32 (.levels 0b110#3) ∧
  listed ['M', 'A', 'P'] 0x70000000#32 .map ∧
  listed ['P', 'I', 'X'] 0x80000000#32 .pix ∧
  illegal 0x50000003#32 3#4 ∧ illegal 0x10001000#32 2#4 ∧ illegal 0x70000001#32 2#4 ∧ illegal 0x00000000#32 1#4 ∧
  illegal 0x9FFFFFFF#32 1#4

/-! ### The step -/

/-- 20_memory.md R45, 30_encoding.md R64: a step whose turn is an agent's performs that agent's oldest offered command, at the
turn's NOW_MS. The command port is the model's (notes/assumptions/2.md). -/
def Obligations.StepPerformsTheOfferedCommand : Prop :=
  ∀ (s : State) (now : Time) (rest : List Turn) (w : Word) (ws : List Word) (i : Instr),
    s.halted = false → decode w = .ok i →
    (s.host.turns = .perform .tick now :: rest → s.host.tickCmds = w :: ws →
      step s = exec i { s with host := ⟨now, ws, s.host.edgeCmds, rest⟩ }) ∧
    (s.host.turns = .perform .edge now :: rest → s.host.edgeCmds = w :: ws →
      step s = exec i { s with host := ⟨now, s.host.tickCmds, ws, rest⟩ })

/-- 30_encoding.md R63, 60_exceptions.md R113, R114: an illegal word writes FAULT, FCAUSE (first cause kept) and nothing else. -/
def Obligations.IllegalWordOnlyRecordsItsFault : Prop :=
  ∀ (s : State) (now : Time) (rest : List Turn) (w : Word) (ws : List Word) (e : Illegal),
    s.halted = false → decode w = .error e →
    let code : BitVec 4 :=
      match e with
      | .illegalOpcode => 1#4
      | .reservedBits => 2#4
      | .reservedPin => 3#4
    (s.host.turns = .perform .tick now :: rest → s.host.tickCmds = w :: ws →
      step s = .next { s with
        fault := true, fcause := if s.fault = true then s.fcause else code
        host := ⟨now, ws, s.host.edgeCmds, rest⟩ }) ∧
    (s.host.turns = .perform .edge now :: rest → s.host.edgeCmds = w :: ws →
      step s = .next { s with
        fault := true, fcause := if s.fault = true then s.fcause else code
        host := ⟨now, s.host.tickCmds, ws, rest⟩ })

/-- 20_memory.md R50: "Every command completes in one step, which is its forward-progress guarantee." That every STEP answers a
next state, also halted (93_implementation_defined.md I16 lets a model stop) or with nothing to do, is the model's choice
(notes/assumptions/3.md and 4.md). -/
def Obligations.EveryCommandAndEveryStepCompletes : Prop :=
  (∀ (i : Instr) (s : State), ∃ t, exec i s = .next t) ∧ ∀ s : State, ∃ t, step s = .next t

/-- 20_memory.md R45: within an agent the performance order is the issue order, whatever the schedule: a run consumes each
agent's commands from the front. The queues are the model's command port (notes/assumptions/2.md), and that RST keeps the offered
words is its choice (notes/assumptions/5.md). -/
def Obligations.EachAgentsCommandsAreTakenInIssueOrder : Prop :=
  ∀ (n : Nat) (s t : State), run n s = .next t →
    ∃ j k, j + k ≤ n ∧ t.host.tickCmds = s.host.tickCmds.drop j ∧ t.host.edgeCmds = s.host.edgeCmds.drop k

/-- 60_exceptions.md R123; 10_state.md R33 "No rule reads it": a command has the same effect whichever agent offers it. The
queues are notes/assumptions/2.md; that a halted state's step is a next state too is notes/assumptions/3.md. -/
def Obligations.EitherAgentsCommandHasTheSameEffect : Prop :=
  ∀ (s : State) (w : Word) (now : Time),
    ∃ t u,
      step { s with host := ⟨s.host.nowMs, [w], [], [.perform .tick now]⟩ } = .next t ∧
      step { s with host := ⟨s.host.nowMs, [], [w], [.perform .edge now]⟩ } = .next u ∧
      SameElements t u

/-- 10_state.md R33: "Only EDGE and LEVELS use now." -/
def Obligations.OnlyEdgeAndLevelsUseNow : Prop :=
  ∀ (i : Instr) (s : State) (now : Time),
    (∀ pin, i ≠ .edge pin) → (∀ lvl, i ≠ .levels lvl) →
    ∃ t, exec i s = .next t ∧ exec i (atTime now s) = .next (atTime now t)

/-- 20_memory.md R53, 10_state.md R32: without RST a step appends one command's group, or nothing, and removes nothing. -/
def Obligations.StepAppendsOneWholeEventGroup : Prop :=
  ∀ s t : State, step s = .next t → s.host.turns.head? ≠ some .rst →
    ∃ group, t.evlog = s.evlog ++ group ∧
      (group = [] ∨
        (∃ r b, group = [.setDuty .r r, .setDuty .b b]) ∨
        (∃ d x y m, group = [.clear, .border d, .rect x y m m true, .flush]) ∨
        (∃ v d, group = [.pin v, .border d]) ∨
        group = [.boot])

/-- notes/assumptions/1.md: the parameters are arguments of the machine, which no step changes, RST included. -/
def Obligations.StepKeepsTheParameters : Prop :=
  ∀ s t : State, step s = .next t → t.cfg = s.cfg

/-! ### Reset, halt and faults -/

/-- 70_reset_and_hazards.md R127, with the Reset column of 10_state.md R16 written out. -/
def Obligations.RstSetsEveryElement : Prop :=
  ∀ (s : State) (rest : List Turn), s.host.turns = .rst :: rest →
    ∃ t, step s = .next t ∧
      t.offX = 0#16 ∧ t.offY = 0#16 ∧ t.calDone = 0b00#2 ∧ t.sx = 0#12 ∧ t.sy = 0#12 ∧ t.lastEv = 0#32 ∧
      t.ledMode = 0#2 ∧ t.borderD = false ∧ t.ledPin = false ∧ t.prevLvl = 0b111#3 ∧ t.pwmR = 0#16 ∧
      t.pwmB = 0#16 ∧ t.pixX = 0#8 ∧ t.pixY = 0#8 ∧ t.fault = false ∧ t.fcause = 0#4 ∧ t.halted = false ∧
      t.evlog = []

/-- notes/assumptions/5.md: RST keeps the parameters and what the host offers, and takes its own turn off the schedule. -/
def Obligations.RstLeavesTheInputsAlone : Prop :=
  ∀ (s : State) (rest : List Turn), s.host.turns = .rst :: rest →
    ∃ t, step s = .next t ∧ t.cfg = s.cfg ∧ t.host = { s.host with turns := rest }

/-- 70_reset_and_hazards.md R128 and 10_state.md R16, R34: the state after reset, and its output ports. -/
def Obligations.ResetStateAndItsOutputs : Prop :=
  let s := State.reset
  s.halted = false ∧ s.fault = false ∧ s.fcause = 0#4 ∧ ledModeOf s.ledMode = .off ∧ s.borderD = false ∧
  s.ledPin = false ∧ s.prevLvl = 0b111#3 ∧ s.calDone = 0b00#2 ∧ s.offX.toInt = 0 ∧ s.offY.toInt = 0 ∧
  s.sx = 0#12 ∧ s.sy = 0#12 ∧ s.lastEv = 0#32 ∧ s.evlog = [] ∧
  outputs s = ⟨0#16, 0#16, 0#8, 0#8, 0#2, 0#1, 0#1, 0#1, 0#4, 0#1, 0#1⟩

/-- 60_exceptions.md R121: while HALTED is 1 a run without RST changes no element and consumes no command; RST leaves the
state. That a halted run goes on with next states is the model's choice: 93_implementation_defined.md I16 lets a model stop
(notes/assumptions/3.md). -/
def Obligations.HaltedUntilRst : Prop :=
  (∀ s : State, halt s = { s with halted := true }) ∧
  (∀ s : State, s.halted = true → (outputs s).halted = 1#1 ∧ (outputs s).bootReq = 1#1) ∧
  (∀ (n : Nat) (s : State), s.halted = true → NoReset n s →
    ∃ t, run n s = .next t ∧ SameElements s t ∧
      t.host.tickCmds = s.host.tickCmds ∧ t.host.edgeCmds = s.host.edgeCmds) ∧
  (∀ (s : State) (rest : List Turn), s.host.turns = .rst :: rest → ∃ t, step s = .next t ∧ t.halted = false)

/-- 10_state.md R30: FAULT is sticky, FCAUSE keeps the first code, only reset clears them, and no command reads them. -/
def Obligations.FaultIsStickyAndKeepsTheFirstCause : Prop :=
  ∀ s t : State, step s = .next t →
    (s.host.turns.head? ≠ some .rst →
      (s.fault = true → t.fault = true ∧ t.fcause = s.fcause) ∧
      (s.fault = false → t.fault = true →
        t.fcause = 1#4 ∨ t.fcause = 2#4 ∨ t.fcause = 3#4 ∨ t.fcause = 4#4) ∧
      (t.fault = false → t.fcause = s.fcause)) ∧
    (s.host.turns.head? = some .rst → t.fault = false ∧ t.fcause = 0#4) ∧
    ∀ f c, ∃ f' c', step { s with fault := f, fcause := c } = .next { t with fault := f', fcause := c' }

/-- 60_exceptions.md R113: "A fault changes no later behaviour, because no command reads FAULT or FCAUSE", over whole runs.
That every run answers a next state rests on notes/assumptions/3.md and 4.md. -/
def Obligations.FaultHistoryNeverChangesARun : Prop :=
  ∀ (n : Nat) (s : State) (f : Bool) (c : BitVec 4),
    ∃ t f' c', run n s = .next t ∧
      run n { s with fault := f, fcause := c } = .next { t with fault := f', fcause := c' }

/-! ### Calibration and sampling -/

/-- 40_calibrate_sample.md R69. -/
def Obligations.CalxCapturesTheXOffsetOnce : Prop :=
  ∀ (raw : Raw) (s : State), s.cfg.Legal →
    decode (0x10000000#32 ||| raw.setWidth 32) = .ok (.calx raw) ∧
    RecordsReservedBits 1#4 0x0FFFF000#32 ∧
    (s.calDone.getLsbD 0 = false →
      ∃ t, exec (.calx raw) s = .next t ∧ t.offX.toInt = (s.cfg.calMid : Int) - raw.toNat ∧
        t.calDone.getLsbD 0 = true ∧ t.calDone.getLsbD 1 = s.calDone.getLsbD 1 ∧
        t = { s with offX := t.offX, calDone := t.calDone }) ∧
    (s.calDone.getLsbD 0 = true →
      exec (.calx raw) s = .next { s with fault := true, fcause := if s.fault = true then s.fcause else 4#4 })

/-- 40_calibrate_sample.md R70. -/
def Obligations.CalyCapturesTheYOffsetOnce : Prop :=
  ∀ (raw : Raw) (s : State), s.cfg.Legal →
    decode (0x20000000#32 ||| raw.setWidth 32) = .ok (.caly raw) ∧
    RecordsReservedBits 2#4 0x0FFFF000#32 ∧
    (s.calDone.getLsbD 1 = false →
      ∃ t, exec (.caly raw) s = .next t ∧ t.offY.toInt = (s.cfg.calMid : Int) - raw.toNat ∧
        t.calDone.getLsbD 1 = true ∧ t.calDone.getLsbD 0 = s.calDone.getLsbD 0 ∧
        t = { s with offY := t.offY, calDone := t.calDone }) ∧
    (s.calDone.getLsbD 1 = true →
      exec (.caly raw) s = .next { s with fault := true, fcause := if s.fault = true then s.fcause else 4#4 })

/-- 40_calibrate_sample.md R74: an in-range sum is accepted, any other is held, whatever the offset. -/
def Obligations.SampxAcceptsInRangeAndHolds : Prop :=
  ∀ (raw : Raw) (s : State), s.cfg.Legal →
    let sum : Int := raw.toNat + s.offX.toInt
    decode (0x30000000#32 ||| raw.setWidth 32) = .ok (.sampx raw) ∧
    RecordsReservedBits 3#4 0x0FFFF000#32 ∧
    (0 ≤ sum → sum ≤ 4095 →
      ∃ t, exec (.sampx raw) s = .next t ∧ (t.sx.toNat : Int) = sum ∧ t = { s with sx := t.sx }) ∧
    (sum < 0 ∨ 4095 < sum → exec (.sampx raw) s = .next s)

/-- 40_calibrate_sample.md R76: the sum clamped to 0..4095, never held. -/
def Obligations.SampyClampsAndNeverHolds : Prop :=
  ∀ (raw : Raw) (s : State), s.cfg.Legal →
    let sum : Int := raw.toNat + s.offY.toInt
    decode (0x40000000#32 ||| raw.setWidth 32) = .ok (.sampy raw) ∧
    RecordsReservedBits 4#4 0x0FFFF000#32 ∧
    ∃ t, exec (.sampy raw) s = .next t ∧ (t.sy.toNat : Int) = max 0 (min sum 4095) ∧ t = { s with sy := t.sy }

/-- 40_calibrate_sample.md R71, with the default CAL_MID: the offset fits, and an immediate sample of the same reading gives
2048, on both axes. -/
def Obligations.SampleOfTheCalibrationReadingIsTheMidpoint : Prop :=
  ∀ (raw : Raw) (s : State), s.cfg.Legal → s.cfg.calMid = 2048 →
    (s.calDone.getLsbD 0 = false →
      ∃ t u, exec (.calx raw) s = .next t ∧ exec (.sampx raw) t = .next u ∧
        t.offX.toInt = 2048 - raw.toNat ∧ -2047 ≤ t.offX.toInt ∧ t.offX.toInt ≤ 2048 ∧
        raw.toNat + t.offX.toInt = 2048 ∧ u.sx = 2048#12) ∧
    (s.calDone.getLsbD 1 = false →
      ∃ t u, exec (.caly raw) s = .next t ∧ exec (.sampy raw) t = .next u ∧
        t.offY.toInt = 2048 - raw.toNat ∧ -2047 ≤ t.offY.toInt ∧ t.offY.toInt ≤ 2048 ∧
        raw.toNat + t.offY.toInt = 2048 ∧ u.sy = 2048#12)

/-- 10_state.md R20: "Nothing clears either bit but reset", and an offset once captured stays, over whole runs. -/
def Obligations.CalibrationStaysUntilRst : Prop :=
  ∀ (n : Nat) (s t : State), NoReset n s → run n s = .next t →
    (s.calDone.getLsbD 0 = true → t.calDone.getLsbD 0 = true ∧ t.offX = s.offX) ∧
    (s.calDone.getLsbD 1 = true → t.calDone.getLsbD 1 = true ∧ t.offY = s.offY)

/-! ### Edges -/

/-- 41_debounce.md R81, R82, R83: an edge at an elapsed time within the window changes nothing; a later one writes LAST_EV,
whichever input it is on. -/
def Obligations.GateIgnoresWithinTheWindow : Prop :=
  ∀ (pin : BitVec 2) (s : State), pin ≠ 0b11#2 →
    (elapsed s ≤ s.cfg.debounceMs → exec (.edge pin) s = .next s) ∧
    (s.cfg.debounceMs < elapsed s → ∃ t, exec (.edge pin) s = .next t ∧ t.lastEv = s.host.nowMs)

/-- 41_debounce.md R85. -/
def Obligations.AcceptedEdgeOnAAdvancesTheMode : Prop :=
  ∀ s : State, s.cfg.debounceMs < elapsed s →
    ∃ t, exec (.edge 0b00#2) s = .next t ∧ t.ledMode.toNat = (s.ledMode.toNat + 1) % 4 ∧
      t = { s with lastEv := s.host.nowMs, ledMode := t.ledMode }

/-- 41_debounce.md R86: BOOT, then HALTED; LAST_EV was written by the gate, and no further command is performed. That a run from
the halted state goes on with next states is the model's choice (notes/assumptions/3.md). -/
def Obligations.AcceptedEdgeOnBBootsAndHalts : Prop :=
  ∀ s : State, s.cfg.debounceMs < elapsed s →
    let t := { s with lastEv := s.host.nowMs, halted := true, evlog := s.evlog ++ [.boot] }
    exec (.edge 0b01#2) s = .next t ∧
      ∀ n, NoReset n t → ∃ u, run n t = .next u ∧ SameElements t u

/-- 41_debounce.md R87: the pin and its event, then the border and its event, each with the new value; and the whole dispatch,
case by case. -/
def Obligations.AcceptedEdgeOnCTogglesPinAndBorder : Prop :=
  (∀ s : State,
    dispatch .a s = { s with ledMode := s.ledMode + 1#2 } ∧
    dispatch .b s = { s with halted := true, evlog := s.evlog ++ [.boot] } ∧
    dispatch .c s =
      { s with
        ledPin := !s.ledPin, borderD := !s.borderD
        evlog := s.evlog ++ [.pin (!s.ledPin), .border (!s.borderD)] }) ∧
  ∀ s : State, s.cfg.debounceMs < elapsed s →
    exec (.edge 0b10#2) s =
      .next { s with
        lastEv := s.host.nowMs, ledPin := !s.ledPin, borderD := !s.borderD
        evlog := s.evlog ++ [.pin (!s.ledPin), .border (!s.borderD)] }

/-- notes/assumptions/7.md (41_debounce.md R88, Exceptions): an EDGE term with the reserved pin records code 3. -/
def Obligations.EdgeWithReservedPinRecordsCodeThree : Prop :=
  ∀ s : State,
    exec (.edge 0b11#2) s = .next { s with fault := true, fcause := if s.fault = true then s.fcause else 3#4 }

/-- 41_debounce.md R89: the levels are stored; the lowest input that fell, if any, is accepted exactly when the window has
passed. -/
def Obligations.LevelsDetectsAndDebouncesFalls : Prop :=
  ∀ (lvl : Levels) (s : State),
    decode (0x60000000#32 ||| lvl.setWidth 32) = .ok (.levels lvl) ∧
    RecordsReservedBits 6#4 0x0FFFFFF8#32 ∧
    (fell s lvl 0 = false → fell s lvl 1 = false → fell s lvl 2 = false →
      exec (.levels lvl) s = .next { s with prevLvl := lvl }) ∧
    (elapsed s ≤ s.cfg.debounceMs → exec (.levels lvl) s = .next { s with prevLvl := lvl }) ∧
    (s.cfg.debounceMs < elapsed s → fell s lvl 0 = true →
      ∃ t, exec (.levels lvl) s = .next t ∧ t.ledMode.toNat = (s.ledMode.toNat + 1) % 4 ∧
        t = { s with prevLvl := lvl, lastEv := s.host.nowMs, ledMode := t.ledMode }) ∧
    (s.cfg.debounceMs < elapsed s → fell s lvl 0 = false → fell s lvl 1 = true →
      exec (.levels lvl) s =
        .next { s with
          prevLvl := lvl, lastEv := s.host.nowMs, halted := true, evlog := s.evlog ++ [.boot] }) ∧
    (s.cfg.debounceMs < elapsed s → fell s lvl 0 = false → fell s lvl 1 = false → fell s lvl 2 = true →
      exec (.levels lvl) s =
        .next { s with
          prevLvl := lvl, lastEv := s.host.nowMs, ledPin := !s.ledPin, borderD := !s.borderD
          evlog := s.evlog ++ [.pin (!s.ledPin), .border (!s.borderD)] })

/-- 41_debounce.md R90: LEVELS is one EDGE on the lowest input that fell, and of several EDGEs at one `now` at most one is
accepted. -/
def Obligations.CoincidentFallsAreOneEdge : Prop :=
  (∀ (lvl : Levels) (s : State),
    exec (.levels lvl) s =
      if fell s lvl 0 = true then exec (.edge 0b00#2) { s with prevLvl := lvl }
      else if fell s lvl 1 = true then exec (.edge 0b01#2) { s with prevLvl := lvl }
      else if fell s lvl 2 = true then exec (.edge 0b10#2) { s with prevLvl := lvl }
      else .next { s with prevLvl := lvl }) ∧
  ∀ (p q : BitVec 2) (s t : State), q ≠ 0b11#2 → exec (.edge p) s = .next t → t.lastEv ≠ s.lastEv →
    exec (.edge q) t = .next t

/-- 41_debounce.md R91, with true times: an edge is accepted exactly when its true distance from the last accepted one, mod
2^32, exceeds the window, on any input. -/
def Obligations.EdgeIsAcceptedByItsTrueDistance : Prop :=
  ∀ (pin : BitVec 2) (s : State) (t1 t2 : Nat), pin ≠ 0b11#2 → t1 ≤ t2 →
    s.lastEv = BitVec.ofNat 32 t1 → s.host.nowMs = BitVec.ofNat 32 t2 →
    ((t2 - t1) % 2 ^ 32 ≤ s.cfg.debounceMs → exec (.edge pin) s = .next s) ∧
    (s.cfg.debounceMs < (t2 - t1) % 2 ^ 32 →
      ∃ t, exec (.edge pin) s = .next t ∧ t.lastEv = BitVec.ofNat 32 t2)

/-- 41_debounce.md R92: four accepted A edges with no other A edge between them restore the mode, one to three never do. What
runs between them keeps LED_MODE. -/
def Obligations.ModeIsAFourCycle : Prop :=
  ∀ s1 t1 s2 t2 s3 t3 s4 t4 : State,
    s1.cfg.debounceMs < elapsed s1 → exec (.edge 0b00#2) s1 = .next t1 → s2.ledMode = t1.ledMode →
    s2.cfg.debounceMs < elapsed s2 → exec (.edge 0b00#2) s2 = .next t2 → s3.ledMode = t2.ledMode →
    s3.cfg.debounceMs < elapsed s3 → exec (.edge 0b00#2) s3 = .next t3 → s4.ledMode = t3.ledMode →
    s4.cfg.debounceMs < elapsed s4 → exec (.edge 0b00#2) s4 = .next t4 →
    t4.ledMode = s1.ledMode ∧ t1.ledMode ≠ s1.ledMode ∧ t2.ledMode ≠ s1.ledMode ∧ t3.ledMode ≠ s1.ledMode

/-- 41_debounce.md R93: RST, then the first edge: accepted only if its `now` exceeds the window. That a word offered before RST is
performed after it is the model's choice (notes/assumptions/5.md). -/
def Obligations.FirstEdgeAfterRstNeedsAFullWindow : Prop :=
  ∀ (s : State) (pin : BitVec 2) (now : Time) (rest : List Turn) (ws : List Word), pin ≠ 0b11#2 →
    s.host.turns = .rst :: .perform .edge now :: rest →
    s.host.edgeCmds = (0x50000000#32 ||| pin.setWidth 32) :: ws →
    ∃ t, run 2 s = .next t ∧
      (now.toNat ≤ s.cfg.debounceMs → t.lastEv = 0#32 ∧ t.ledMode = 0#2 ∧ t.halted = false ∧ t.evlog = []) ∧
      (s.cfg.debounceMs < now.toNat → t.lastEv = now)

/-- 41_debounce.md R95: EDGE and LEVELS write no other element (a legal pin), and append only PIN, BORDER and BOOT. -/
def Obligations.EdgeCommandsWriteOnlyTheirElements : Prop :=
  ∀ s t : State,
    ((∃ pin, pin ≠ 0b11#2 ∧ exec (.edge pin) s = .next t) →
      t = { s with
        lastEv := t.lastEv, ledMode := t.ledMode, borderD := t.borderD, ledPin := t.ledPin, halted := t.halted
        evlog := t.evlog }) ∧
    ((∃ lvl, exec (.levels lvl) s = .next t) →
      t = { s with
        lastEv := t.lastEv, ledMode := t.ledMode, borderD := t.borderD, ledPin := t.ledPin, prevLvl := t.prevLvl
        halted := t.halted, evlog := t.evlog }) ∧
    ((∃ pin, exec (.edge pin) s = .next t) ∨ (∃ lvl, exec (.levels lvl) s = .next t) →
      ∃ group, t.evlog = s.evlog ++ group ∧
        ∀ e ∈ group, e = .boot ∨ (∃ v, e = .pin v) ∨ ∃ d, e = .border d)

/-- 41_debounce.md R91 with 70_reset_and_hazards.md R139's premise: while a truthful clock moves by no more than the window, at
most one edge is accepted, whatever the commands and whatever the schedule without RST. -/
def Obligations.AtMostOneEdgeAcceptedPerWindow : Prop :=
  ∀ (n : Nat) (s : State) (start : Nat), s.cfg.Legal →
    TruthfulClock start (start + s.cfg.debounceMs) s.host.turns → acceptedEdges n s ≤ 1

/-! ### Mapping and pixels -/

/-- 42_pwm_map.md R97: both duties by mode, both registers, both events. -/
def Obligations.MapAppliesTheDutiesOfTheMode : Prop :=
  ∀ s : State, s.cfg.Legal →
    let dx := s.sx.toNat * s.cfg.pwmPeriod / 4095
    let dy := s.sy.toNat * s.cfg.pwmPeriod / 4095
    let r := if s.ledMode = 1#2 ∨ s.ledMode = 3#2 then dx else 0
    let b := if s.ledMode = 2#2 ∨ s.ledMode = 3#2 then dy else 0
    decode 0x70000000#32 = .ok .map ∧
    RecordsReservedBits 7#4 0x0FFFFFFF#32 ∧
    ∃ t, exec .map s = .next t ∧ t.pwmR.toNat = r ∧ t.pwmB.toNat = b ∧
      t.evlog = s.evlog ++ [.setDuty .r r, .setDuty .b b] ∧
      t = { s with pwmR := t.pwmR, pwmB := t.pwmB, evlog := t.evlog }

/-- 42_pwm_map.md R102, laws 1 to 4 with the defaults and law 5 for any legal parameters. -/
def Obligations.DutyObeysItsLaws : Prop :=
  (∀ m n : Nat, m ≤ n → n ≤ 4095 → duty { } m ≤ duty { } n) ∧
  duty { } 0 = 0 ∧ duty { } 4095 = 2048 ∧ duty { } 2048 = 1024 ∧
  ∀ p : Params, p.Legal →
    duty p p.adcMax = p.pwmPeriod ∧ ∀ n : Nat, n < p.adcMax → duty p n < p.pwmPeriod

/-- 43_pixel.md R105: the coordinate, both registers, the four events. -/
def Obligations.PixPlacesTheMarkerAndRenders : Prop :=
  ∀ s : State, s.cfg.Legal →
    let x := s.sx.toNat * (s.cfg.dispW - s.cfg.marker) / 4095
    let y := (4095 - s.sy.toNat) * (s.cfg.dispH - s.cfg.marker) / 4095
    decode 0x80000000#32 = .ok .pix ∧
    RecordsReservedBits 8#4 0x0FFFFFFF#32 ∧
    ∃ t, exec .pix s = .next t ∧ t.pixX.toNat = x ∧ t.pixY.toNat = y ∧
      t.evlog =
        s.evlog ++ [.clear, .border s.borderD, .rect x y s.cfg.marker s.cfg.marker true, .flush] ∧
      t = { s with pixX := t.pixX, pixY := t.pixY, evlog := t.evlog }

/-- 43_pixel.md R106: `py` is non-increasing in `sy` and `px` non-decreasing in `sx`, for any legal parameters. -/
def Obligations.YIsInvertedAndXIsNot : Prop :=
  ∀ (p : Params) (m n : Nat), p.Legal → m ≤ n → n ≤ 4095 → px p m ≤ px p n ∧ py p n ≤ py p m

/-- 43_pixel.md R108: every pixel of the marker PIX places lies in the display. -/
def Obligations.MarkerLiesInsideTheDisplay : Prop :=
  ∀ (s t : State) (i j : Nat), s.cfg.Legal → exec .pix s = .next t → i < s.cfg.marker → j < s.cfg.marker →
    t.pixX.toNat + i < s.cfg.dispW ∧ t.pixY.toNat + j < s.cfg.dispH

/-! ### Commands together -/

/-- 10_state.md R38 and R16: the tick agent's commands write only their own elements, the fault record and the log. -/
def Obligations.TickCommandsWriteOnlyTheirElements : Prop :=
  ∀ (i : Instr) (s t : State), (∀ pin, i ≠ .edge pin) → (∀ lvl, i ≠ .levels lvl) → exec i s = .next t →
    t = { s with
      offX := t.offX, offY := t.offY, calDone := t.calDone, sx := t.sx, sy := t.sy, pwmR := t.pwmR
      pwmB := t.pwmB, pixX := t.pixX, pixY := t.pixY, fault := t.fault, fcause := t.fcause, evlog := t.evlog }

/-- 20_memory.md R54: the table of repeats. -/
def Obligations.RepeatedCommandsAsTabled : Prop :=
  ∀ s t : State,
    (∀ raw, exec (.calx raw) s = .next t → ∃ u, exec (.calx raw) t = .next u ∧ u.fault = true ∧ u.offX = t.offX) ∧
    (∀ raw, exec (.caly raw) s = .next t → ∃ u, exec (.caly raw) t = .next u ∧ u.fault = true ∧ u.offY = t.offY) ∧
    (∀ raw, exec (.sampx raw) s = .next t → exec (.sampx raw) t = .next t) ∧
    (∀ raw, exec (.sampy raw) s = .next t → exec (.sampy raw) t = .next t) ∧
    (exec .map s = .next t →
      ∃ group, t.evlog = s.evlog ++ group ∧ exec .map t = .next { t with evlog := t.evlog ++ group }) ∧
    (exec .pix s = .next t →
      ∃ group, t.evlog = s.evlog ++ group ∧ exec .pix t = .next { t with evlog := t.evlog ++ group }) ∧
    (∀ pin now, pin ≠ 0b11#2 → exec (.edge pin) s = .next t → t.lastEv = s.host.nowMs →
      elapsed (atTime now t) ≤ s.cfg.debounceMs → exec (.edge pin) (atTime now t) = .next (atTime now t)) ∧
    (∀ lvl now, exec (.levels lvl) s = .next t → exec (.levels lvl) (atTime now t) = .next (atTime now t))

/-- 30_encoding.md R67: `TICK rx, ry` run without a command between its own gives one tick of the control loop, from samples to
the outputs. The queue and the turns it is run from are the model's command port (notes/assumptions/2.md). -/
def Obligations.UninterruptedTickDrivesTheOutputs : Prop :=
  ∀ (s : State) (rx ry : Raw) (ws : List Word) (now : Time) (rest : List Turn),
    s.cfg.Legal → s.halted = false →
    s.host.tickCmds = (Pseudo.tick rx ry).words ++ ws →
    s.host.turns =
      [.perform .tick now, .perform .tick now, .perform .tick now, .perform .tick now] ++ rest →
    ∃ t u v, exec (.sampx rx) s = .next t ∧ exec (.sampy ry) t = .next u ∧ run 4 s = .next v ∧
      v.sx = t.sx ∧ v.sy = u.sy ∧ v.host.tickCmds = ws ∧
      v.pixX.toNat = u.sx.toNat * (s.cfg.dispW - s.cfg.marker) / 4095 ∧
      v.pixY.toNat = (4095 - u.sy.toNat) * (s.cfg.dispH - s.cfg.marker) / 4095 ∧
      v.evlog =
        s.evlog ++
          [.clear, .border s.borderD, .rect v.pixX.toNat v.pixY.toNat s.cfg.marker s.cfg.marker true, .flush,
            .setDuty .r v.pwmR.toNat, .setDuty .b v.pwmB.toNat] ∧
      v.pwmR.toNat = (if s.ledMode = 1#2 ∨ s.ledMode = 3#2 then u.sx.toNat * s.cfg.pwmPeriod / 4095 else 0) ∧
      v.pwmB.toNat = (if s.ledMode = 2#2 ∨ s.ledMode = 3#2 then u.sy.toNat * s.cfg.pwmPeriod / 4095 else 0)

/-! ### Invariants -/

/-- 10_state.md R19, R28, R29 as an invariant of every step, from every state that meets it. -/
def Obligations.StepKeepsRegistersBounded : Prop :=
  ∀ s t : State, RegistersBounded s → step s = .next t → RegistersBounded t

/-- 60_exceptions.md R114 as an invariant: the codes 5..15 are never written. -/
def Obligations.StepKeepsFaultRecordSound : Prop :=
  ∀ s t : State, FaultRecordSound s → step s = .next t → FaultRecordSound t

/-- 10_state.md R32, R34: the event log tells the output elements, as an invariant of every step. -/
def Obligations.StepKeepsLogTellingOutputs : Prop :=
  ∀ s t : State, LogTellsOutputs s → step s = .next t → LogTellsOutputs t

/-- The three invariants hold at reset (70_reset_and_hazards.md R127). -/
def Obligations.ResetMeetsTheInvariants : Prop :=
  RegistersBounded State.reset ∧ FaultRecordSound State.reset ∧ LogTellsOutputs State.reset
end

