-- ==== Sys2Proof/Laws/Decode.lean ====
section
/-! SUPPORT. What `decode` answers, said once (30_encoding.md R64), and how the operand field of an encoded word reads back. -/

namespace Sys2Proof

/-- Everything `decode` can answer, in its fixed order. -/
theorem decode_cases (w : Word) :
    (Opcode.ofBits (opField w) = none ∧ decode w = .error .illegalOpcode) ∨
    (∃ op, Opcode.ofBits (opField w) = some op ∧ w &&& op.format.reserved ≠ 0#32 ∧
      decode w = .error .reservedBits) ∨
    (Opcode.ofBits (opField w) = some .edge ∧ w &&& Format.fPin.reserved = 0#32 ∧ pinField w = 0b11#2 ∧
      decode w = .error .reservedPin) ∨
    (∃ op, Opcode.ofBits (opField w) = some op ∧ w &&& op.format.reserved = 0#32 ∧
      ¬(op = .edge ∧ pinField w = 0b11#2) ∧ decode w = .ok (op.instr w)) := by
  unfold decode
  cases ho : Opcode.ofBits (opField w) with
  | none => exact .inl ⟨rfl, rfl⟩
  | some op =>
    right
    by_cases hr : w &&& op.format.reserved = 0#32
    · right
      by_cases hp : op = .edge ∧ pinField w = 0b11#2
      · obtain ⟨rfl, hp⟩ := hp
        exact .inl ⟨rfl, hr, hp, by simp [hr, hp]⟩
      · exact .inr ⟨op, rfl, hr, hp, by simp only [hr, hp]; simp⟩
    · exact .inl ⟨op, rfl, hr, by simp [hr]⟩

/-- A word whose opcode, reserved bits and pin are legal decodes to its opcode's command. -/
theorem decode_of_legal {w : Word} {op : Opcode} (ho : Opcode.ofBits (opField w) = some op)
    (hr : w &&& op.format.reserved = 0#32) (hp : ¬(op = .edge ∧ pinField w = 0b11#2)) :
    decode w = .ok (op.instr w) := by
  unfold decode
  simp only [ho, hr, hp]
  simp

/-- A legal opcode with a reserved bit set is refused as RESERVED_BITS. -/
theorem decode_of_reserved {w : Word} {op : Opcode} (ho : Opcode.ofBits (opField w) = some op)
    (hr : w &&& op.format.reserved ≠ 0#32) : decode w = .error .reservedBits := by
  unfold decode
  simp [ho, hr]

/-- An operand field reads back from the word it was put into, where the rest of the word leaves its bits 0. -/
theorem extract_operand {n : Nat} (m : Word) (v : BitVec n) (hm : ∀ j < 32, m.getLsbD j = true → n ≤ j)
    (hn : n ≤ 32) : (m ||| v.setWidth 32).extractLsb' 0 n = v := by
  apply BitVec.eq_of_getLsbD_eq
  intro j hj
  simp only [BitVec.getLsbD_extractLsb', BitVec.getLsbD_or, BitVec.getLsbD_setWidth]
  cases h : m.getLsbD (0 + j) with
  | true => have := hm (0 + j) (by omega) h; omega
  | false => simp [hj]; intro; omega

/-- The bits above an operand are those of the rest of the word. -/
theorem extract_above_operand {n k : Nat} (m : Word) (v : BitVec n) (lo : Nat) (h : n ≤ lo) :
    (m ||| v.setWidth 32).extractLsb' lo k = m.extractLsb' lo k := by
  apply BitVec.eq_of_getLsbD_eq
  intro j hj
  simp only [BitVec.getLsbD_extractLsb', BitVec.getLsbD_or, BitVec.getLsbD_setWidth]
  rw [BitVec.getLsbD_of_ge v _ (by omega)]
  simp

/-- A mask that looks only above the operand sees the rest of the word. -/
theorem and_above_operand {n : Nat} (m k : Word) (v : BitVec n)
    (h : ∀ j < 32, n ≤ j ∨ k.getLsbD j = false) : (m ||| v.setWidth 32) &&& k = m &&& k := by
  apply BitVec.eq_of_getLsbD_eq
  intro j hj
  simp only [BitVec.getLsbD_and, BitVec.getLsbD_or, BitVec.getLsbD_setWidth]
  rcases h j hj with h | h
  · simp [BitVec.getLsbD_of_ge v j h]
  · simp [h]

end Sys2Proof
end

