-- ==== Sys2Proof/Laws/Operands.lean ====
section
/-! SUPPORT. What the arithmetic of the operands and of the two mappings computes: ranges, exactness, and that the clamp and
saturate stages are identities on every value a register can hold (42_pwm_map.md R98, R99; 43_pixel.md R107). -/

namespace Sys2Proof.Machine

/-- The defaults of 00_scope.md R7 meet its own constraints. -/
theorem default_params_legal : Params.Legal { } := by constructor <;> decide

theorem clamp_eq_self {v lo hi : Int} (h1 : lo ≤ v) (h2 : v ≤ hi) : clamp v lo hi = v := by
  unfold clamp; split <;> [omega; split <;> omega]

theorem le_clamp {v lo hi : Int} (h : lo ≤ hi) : lo ≤ clamp v lo hi := by
  unfold clamp; split <;> [omega; split <;> omega]

theorem clamp_le {v lo hi : Int} (h : lo ≤ hi) : clamp v lo hi ≤ hi := by
  unfold clamp; split <;> [omega; split <;> omega]

theorem rawValue_nonneg (raw : Raw) : 0 ≤ rawValue raw := by unfold rawValue; omega

theorem rawValue_le (raw : Raw) : rawValue raw ≤ 4095 := by
  have := raw.isLt
  unfold rawValue; omega

/-- The exact sum, in the spec's terms. -/
theorem adjusted_eq (raw : Raw) (off : Offset) : adjusted raw off = (raw.toNat : Int) + off.toInt := rfl

/-- Narrowing a sum in 0..4095 to the sample register loses nothing. -/
theorem toNat_ofInt_sample {v : Int} (h0 : 0 ≤ v) (h1 : v ≤ 4095) : ((BitVec.ofInt 12 v).toNat : Int) = v := by
  rw [BitVec.toNat_ofInt]; omega

/-- Narrowing an offset in the register's range loses nothing. -/
theorem toInt_ofInt_offset {v : Int} (h0 : -32768 ≤ v) (h1 : v ≤ 32767) : (BitVec.ofInt 16 v).toInt = v := by
  rw [BitVec.toInt_ofInt]
  exact Int.bmod_eq_of_le (by omega) (by omega)

/-- An offset CALX or CALY computes lies in CAL_MID−4095..CAL_MID (10_state.md R19). -/
theorem offsetFor_bounds (p : Params) (raw : Raw) :
    (p.calMid : Int) - 4095 ≤ offsetFor p raw ∧ offsetFor p raw ≤ p.calMid := by
  have := rawValue_nonneg raw
  have := rawValue_le raw
  unfold offsetFor; omega

/-- With legal parameters the offset register holds the computed offset exactly (00_scope.md R8). -/
theorem toInt_offsetFor {p : Params} (hp : p.Legal) (raw : Raw) :
    (BitVec.ofInt 16 (offsetFor p raw)).toInt = (p.calMid : Int) - raw.toNat := by
  have hb := offsetFor_bounds p raw
  have h1 := hp.calMid_le
  have h2 := hp.adcMax_eq
  rw [toInt_ofInt_offset (by omega) (by omega)]
  rfl

/-- The elapsed time of 41_debounce.md R81, in numbers. -/
theorem elapsedSince_eq (last now : Time) :
    elapsedSince last now = (now.toNat + 2 ^ 32 - last.toNat) % 2 ^ 32 := by
  have := last.isLt
  unfold elapsedSince
  rw [BitVec.toNat_sub]
  congr 1; omega

@[simp] theorem elapsedSince_self (now : Time) : elapsedSince now now = 0 := by simp [elapsedSince]

/-- The intensity of a sample: the clamp and the saturation are identities (42_pwm_map.md R98, R99). -/
theorem duty_eq {p : Params} {n : Nat} (h : n ≤ p.adcMax) : duty p n = n * p.pwmPeriod / p.adcMax := by
  have hc : (clamp (n : Int) 0 p.adcMax).toNat = n := by
    rw [clamp_eq_self (by omega) (by omega)]; rfl
  have hm : n * p.pwmPeriod / p.adcMax ≤ p.pwmPeriod :=
    Nat.div_le_of_le_mul (Nat.mul_le_mul_right _ h)
  rw [duty, floorDiv, hc, Nat.min_eq_left hm]

/-- Every duty is at most PWM_PERIOD (42_pwm_map.md R99). -/
theorem duty_le (p : Params) (n : Nat) : duty p n ≤ p.pwmPeriod := Nat.min_le_right _ _

/-- The X coordinate of a sample: the clamp is the identity (43_pixel.md R107). -/
theorem px_eq {p : Params} {n : Nat} (h : n ≤ p.adcMax) : px p n = n * (p.dispW - p.marker) / p.adcMax := by
  have hm : n * drawableW p / p.adcMax ≤ drawableW p := Nat.div_le_of_le_mul (Nat.mul_le_mul_right _ h)
  rw [px, floorDiv, clamp_eq_self (Int.natCast_nonneg _) (Int.ofNat_le.2 hm)]; rfl

/-- The Y coordinate of a sample: the clamp is the identity (43_pixel.md R107). -/
theorem py_eq {p : Params} {n : Nat} :
    py p n = (p.adcMax - n) * (p.dispH - p.marker) / p.adcMax := by
  have hm : (p.adcMax - n) * drawableH p / p.adcMax ≤ drawableH p :=
    Nat.div_le_of_le_mul (Nat.mul_le_mul_right _ (Nat.sub_le _ _))
  rw [py, floorDiv, clamp_eq_self (Int.natCast_nonneg _) (Int.ofNat_le.2 hm)]; rfl

theorem px_le (p : Params) (n : Nat) : px p n ≤ p.dispW - p.marker := by
  have := clamp_le (v := (floorDiv (n * drawableW p) p.adcMax : Nat)) (lo := 0) (hi := drawableW p) (by omega)
  unfold px drawableW at *; omega

theorem py_le (p : Params) (n : Nat) : py p n ≤ p.dispH - p.marker := by
  have := clamp_le (v := (floorDiv ((p.adcMax - n) * drawableH p) p.adcMax : Nat)) (lo := 0) (hi := drawableH p)
    (by omega)
  unfold py drawableH at *; omega

/-- A sample register never exceeds ADC_MAX (40_calibrate_sample.md R78). -/
theorem sample_le {p : Params} (hp : p.Legal) (v : Sample) : v.toNat ≤ p.adcMax := by
  have := v.isLt
  have := hp.adcMax_eq
  omega

/-- The duties MAP applies are at most PWM_PERIOD, in every mode. -/
theorem mappedDuties_le (s : State) :
    (mappedDuties s).1 ≤ s.cfg.pwmPeriod ∧ (mappedDuties s).2 ≤ s.cfg.pwmPeriod := by
  have hx := duty_le s.cfg s.sx.toNat
  have hy := duty_le s.cfg s.sy.toNat
  unfold mappedDuties channelDuties
  split <;> simp_all

end Sys2Proof.Machine
end

