-- ==== Sys2Proof/Laws/State.lean ====
section
/-! SUPPORT. What each named update of the state leaves in each field, true by unfolding the update once; later proofs use
these and unfold no record update. -/

namespace Sys2Proof.Machine

section emitFields

variable (e : Event) (s : State)

@[simp] theorem emit_offX : (emit e s).offX = s.offX := rfl
@[simp] theorem emit_offY : (emit e s).offY = s.offY := rfl
@[simp] theorem emit_calDone : (emit e s).calDone = s.calDone := rfl
@[simp] theorem emit_sx : (emit e s).sx = s.sx := rfl
@[simp] theorem emit_sy : (emit e s).sy = s.sy := rfl
@[simp] theorem emit_lastEv : (emit e s).lastEv = s.lastEv := rfl
@[simp] theorem emit_ledMode : (emit e s).ledMode = s.ledMode := rfl
@[simp] theorem emit_borderD : (emit e s).borderD = s.borderD := rfl
@[simp] theorem emit_ledPin : (emit e s).ledPin = s.ledPin := rfl
@[simp] theorem emit_prevLvl : (emit e s).prevLvl = s.prevLvl := rfl
@[simp] theorem emit_pwmR : (emit e s).pwmR = s.pwmR := rfl
@[simp] theorem emit_pwmB : (emit e s).pwmB = s.pwmB := rfl
@[simp] theorem emit_pixX : (emit e s).pixX = s.pixX := rfl
@[simp] theorem emit_pixY : (emit e s).pixY = s.pixY := rfl
@[simp] theorem emit_fault : (emit e s).fault = s.fault := rfl
@[simp] theorem emit_fcause : (emit e s).fcause = s.fcause := rfl
@[simp] theorem emit_halted : (emit e s).halted = s.halted := rfl
@[simp] theorem emit_evlog : (emit e s).evlog = s.evlog ++ [e] := rfl
@[simp] theorem emit_cfg : (emit e s).cfg = s.cfg := rfl
@[simp] theorem emit_host : (emit e s).host = s.host := rfl

end emitFields

section raiseFaultFields

variable (code : FaultCode) (s : State)

@[simp] theorem raiseFault_offX : (raiseFault code s).offX = s.offX := rfl
@[simp] theorem raiseFault_offY : (raiseFault code s).offY = s.offY := rfl
@[simp] theorem raiseFault_calDone : (raiseFault code s).calDone = s.calDone := rfl
@[simp] theorem raiseFault_sx : (raiseFault code s).sx = s.sx := rfl
@[simp] theorem raiseFault_sy : (raiseFault code s).sy = s.sy := rfl
@[simp] theorem raiseFault_lastEv : (raiseFault code s).lastEv = s.lastEv := rfl
@[simp] theorem raiseFault_ledMode : (raiseFault code s).ledMode = s.ledMode := rfl
@[simp] theorem raiseFault_borderD : (raiseFault code s).borderD = s.borderD := rfl
@[simp] theorem raiseFault_ledPin : (raiseFault code s).ledPin = s.ledPin := rfl
@[simp] theorem raiseFault_prevLvl : (raiseFault code s).prevLvl = s.prevLvl := rfl
@[simp] theorem raiseFault_pwmR : (raiseFault code s).pwmR = s.pwmR := rfl
@[simp] theorem raiseFault_pwmB : (raiseFault code s).pwmB = s.pwmB := rfl
@[simp] theorem raiseFault_pixX : (raiseFault code s).pixX = s.pixX := rfl
@[simp] theorem raiseFault_pixY : (raiseFault code s).pixY = s.pixY := rfl
@[simp] theorem raiseFault_fault : (raiseFault code s).fault = true := rfl
@[simp] theorem raiseFault_fcause : (raiseFault code s).fcause = firstCause s.fault s.fcause code := rfl
@[simp] theorem raiseFault_halted : (raiseFault code s).halted = s.halted := rfl
@[simp] theorem raiseFault_evlog : (raiseFault code s).evlog = s.evlog := rfl
@[simp] theorem raiseFault_cfg : (raiseFault code s).cfg = s.cfg := rfl
@[simp] theorem raiseFault_host : (raiseFault code s).host = s.host := rfl

end raiseFaultFields

section haltFields

variable (s : State)

@[simp] theorem halt_offX : (halt s).offX = s.offX := rfl
@[simp] theorem halt_offY : (halt s).offY = s.offY := rfl
@[simp] theorem halt_calDone : (halt s).calDone = s.calDone := rfl
@[simp] theorem halt_sx : (halt s).sx = s.sx := rfl
@[simp] theorem halt_sy : (halt s).sy = s.sy := rfl
@[simp] theorem halt_lastEv : (halt s).lastEv = s.lastEv := rfl
@[simp] theorem halt_ledMode : (halt s).ledMode = s.ledMode := rfl
@[simp] theorem halt_borderD : (halt s).borderD = s.borderD := rfl
@[simp] theorem halt_ledPin : (halt s).ledPin = s.ledPin := rfl
@[simp] theorem halt_prevLvl : (halt s).prevLvl = s.prevLvl := rfl
@[simp] theorem halt_pwmR : (halt s).pwmR = s.pwmR := rfl
@[simp] theorem halt_pwmB : (halt s).pwmB = s.pwmB := rfl
@[simp] theorem halt_pixX : (halt s).pixX = s.pixX := rfl
@[simp] theorem halt_pixY : (halt s).pixY = s.pixY := rfl
@[simp] theorem halt_fault : (halt s).fault = s.fault := rfl
@[simp] theorem halt_fcause : (halt s).fcause = s.fcause := rfl
@[simp] theorem halt_halted : (halt s).halted = true := rfl
@[simp] theorem halt_evlog : (halt s).evlog = s.evlog := rfl
@[simp] theorem halt_cfg : (halt s).cfg = s.cfg := rfl
@[simp] theorem halt_host : (halt s).host = s.host := rfl

end haltFields

section setCalDoneFields

variable (v : BitVec 2) (s : State)

@[simp] theorem setCalDone_offX : (setCalDone v s).offX = s.offX := rfl
@[simp] theorem setCalDone_offY : (setCalDone v s).offY = s.offY := rfl
@[simp] theorem setCalDone_calDone : (setCalDone v s).calDone = v := rfl
@[simp] theorem setCalDone_sx : (setCalDone v s).sx = s.sx := rfl
@[simp] theorem setCalDone_sy : (setCalDone v s).sy = s.sy := rfl
@[simp] theorem setCalDone_lastEv : (setCalDone v s).lastEv = s.lastEv := rfl
@[simp] theorem setCalDone_ledMode : (setCalDone v s).ledMode = s.ledMode := rfl
@[simp] theorem setCalDone_borderD : (setCalDone v s).borderD = s.borderD := rfl
@[simp] theorem setCalDone_ledPin : (setCalDone v s).ledPin = s.ledPin := rfl
@[simp] theorem setCalDone_prevLvl : (setCalDone v s).prevLvl = s.prevLvl := rfl
@[simp] theorem setCalDone_pwmR : (setCalDone v s).pwmR = s.pwmR := rfl
@[simp] theorem setCalDone_pwmB : (setCalDone v s).pwmB = s.pwmB := rfl
@[simp] theorem setCalDone_pixX : (setCalDone v s).pixX = s.pixX := rfl
@[simp] theorem setCalDone_pixY : (setCalDone v s).pixY = s.pixY := rfl
@[simp] theorem setCalDone_fault : (setCalDone v s).fault = s.fault := rfl
@[simp] theorem setCalDone_fcause : (setCalDone v s).fcause = s.fcause := rfl
@[simp] theorem setCalDone_halted : (setCalDone v s).halted = s.halted := rfl
@[simp] theorem setCalDone_evlog : (setCalDone v s).evlog = s.evlog := rfl
@[simp] theorem setCalDone_cfg : (setCalDone v s).cfg = s.cfg := rfl
@[simp] theorem setCalDone_host : (setCalDone v s).host = s.host := rfl

end setCalDoneFields

section setPrevLvlFields

variable (lvl : Levels) (s : State)

@[simp] theorem setPrevLvl_offX : (setPrevLvl lvl s).offX = s.offX := rfl
@[simp] theorem setPrevLvl_offY : (setPrevLvl lvl s).offY = s.offY := rfl
@[simp] theorem setPrevLvl_calDone : (setPrevLvl lvl s).calDone = s.calDone := rfl
@[simp] theorem setPrevLvl_sx : (setPrevLvl lvl s).sx = s.sx := rfl
@[simp] theorem setPrevLvl_sy : (setPrevLvl lvl s).sy = s.sy := rfl
@[simp] theorem setPrevLvl_lastEv : (setPrevLvl lvl s).lastEv = s.lastEv := rfl
@[simp] theorem setPrevLvl_ledMode : (setPrevLvl lvl s).ledMode = s.ledMode := rfl
@[simp] theorem setPrevLvl_borderD : (setPrevLvl lvl s).borderD = s.borderD := rfl
@[simp] theorem setPrevLvl_ledPin : (setPrevLvl lvl s).ledPin = s.ledPin := rfl
@[simp] theorem setPrevLvl_prevLvl : (setPrevLvl lvl s).prevLvl = lvl := rfl
@[simp] theorem setPrevLvl_pwmR : (setPrevLvl lvl s).pwmR = s.pwmR := rfl
@[simp] theorem setPrevLvl_pwmB : (setPrevLvl lvl s).pwmB = s.pwmB := rfl
@[simp] theorem setPrevLvl_pixX : (setPrevLvl lvl s).pixX = s.pixX := rfl
@[simp] theorem setPrevLvl_pixY : (setPrevLvl lvl s).pixY = s.pixY := rfl
@[simp] theorem setPrevLvl_fault : (setPrevLvl lvl s).fault = s.fault := rfl
@[simp] theorem setPrevLvl_fcause : (setPrevLvl lvl s).fcause = s.fcause := rfl
@[simp] theorem setPrevLvl_halted : (setPrevLvl lvl s).halted = s.halted := rfl
@[simp] theorem setPrevLvl_evlog : (setPrevLvl lvl s).evlog = s.evlog := rfl
@[simp] theorem setPrevLvl_cfg : (setPrevLvl lvl s).cfg = s.cfg := rfl
@[simp] theorem setPrevLvl_host : (setPrevLvl lvl s).host = s.host := rfl

end setPrevLvlFields

section advanceModeFields

variable (s : State)

@[simp] theorem advanceMode_offX : (advanceMode s).offX = s.offX := rfl
@[simp] theorem advanceMode_offY : (advanceMode s).offY = s.offY := rfl
@[simp] theorem advanceMode_calDone : (advanceMode s).calDone = s.calDone := rfl
@[simp] theorem advanceMode_sx : (advanceMode s).sx = s.sx := rfl
@[simp] theorem advanceMode_sy : (advanceMode s).sy = s.sy := rfl
@[simp] theorem advanceMode_lastEv : (advanceMode s).lastEv = s.lastEv := rfl
@[simp] theorem advanceMode_ledMode : (advanceMode s).ledMode = nextMode s.ledMode := rfl
@[simp] theorem advanceMode_borderD : (advanceMode s).borderD = s.borderD := rfl
@[simp] theorem advanceMode_ledPin : (advanceMode s).ledPin = s.ledPin := rfl
@[simp] theorem advanceMode_prevLvl : (advanceMode s).prevLvl = s.prevLvl := rfl
@[simp] theorem advanceMode_pwmR : (advanceMode s).pwmR = s.pwmR := rfl
@[simp] theorem advanceMode_pwmB : (advanceMode s).pwmB = s.pwmB := rfl
@[simp] theorem advanceMode_pixX : (advanceMode s).pixX = s.pixX := rfl
@[simp] theorem advanceMode_pixY : (advanceMode s).pixY = s.pixY := rfl
@[simp] theorem advanceMode_fault : (advanceMode s).fault = s.fault := rfl
@[simp] theorem advanceMode_fcause : (advanceMode s).fcause = s.fcause := rfl
@[simp] theorem advanceMode_halted : (advanceMode s).halted = s.halted := rfl
@[simp] theorem advanceMode_evlog : (advanceMode s).evlog = s.evlog := rfl
@[simp] theorem advanceMode_cfg : (advanceMode s).cfg = s.cfg := rfl
@[simp] theorem advanceMode_host : (advanceMode s).host = s.host := rfl

end advanceModeFields

section togglePinFields

variable (s : State)

@[simp] theorem togglePin_offX : (togglePin s).offX = s.offX := rfl
@[simp] theorem togglePin_offY : (togglePin s).offY = s.offY := rfl
@[simp] theorem togglePin_calDone : (togglePin s).calDone = s.calDone := rfl
@[simp] theorem togglePin_sx : (togglePin s).sx = s.sx := rfl
@[simp] theorem togglePin_sy : (togglePin s).sy = s.sy := rfl
@[simp] theorem togglePin_lastEv : (togglePin s).lastEv = s.lastEv := rfl
@[simp] theorem togglePin_ledMode : (togglePin s).ledMode = s.ledMode := rfl
@[simp] theorem togglePin_borderD : (togglePin s).borderD = s.borderD := rfl
@[simp] theorem togglePin_ledPin : (togglePin s).ledPin = !s.ledPin := rfl
@[simp] theorem togglePin_prevLvl : (togglePin s).prevLvl = s.prevLvl := rfl
@[simp] theorem togglePin_pwmR : (togglePin s).pwmR = s.pwmR := rfl
@[simp] theorem togglePin_pwmB : (togglePin s).pwmB = s.pwmB := rfl
@[simp] theorem togglePin_pixX : (togglePin s).pixX = s.pixX := rfl
@[simp] theorem togglePin_pixY : (togglePin s).pixY = s.pixY := rfl
@[simp] theorem togglePin_fault : (togglePin s).fault = s.fault := rfl
@[simp] theorem togglePin_fcause : (togglePin s).fcause = s.fcause := rfl
@[simp] theorem togglePin_halted : (togglePin s).halted = s.halted := rfl
@[simp] theorem togglePin_evlog : (togglePin s).evlog = s.evlog ++ [.pin (!s.ledPin)] := rfl
@[simp] theorem togglePin_cfg : (togglePin s).cfg = s.cfg := rfl
@[simp] theorem togglePin_host : (togglePin s).host = s.host := rfl

end togglePinFields

section toggleBorderFields

variable (s : State)

@[simp] theorem toggleBorder_offX : (toggleBorder s).offX = s.offX := rfl
@[simp] theorem toggleBorder_offY : (toggleBorder s).offY = s.offY := rfl
@[simp] theorem toggleBorder_calDone : (toggleBorder s).calDone = s.calDone := rfl
@[simp] theorem toggleBorder_sx : (toggleBorder s).sx = s.sx := rfl
@[simp] theorem toggleBorder_sy : (toggleBorder s).sy = s.sy := rfl
@[simp] theorem toggleBorder_lastEv : (toggleBorder s).lastEv = s.lastEv := rfl
@[simp] theorem toggleBorder_ledMode : (toggleBorder s).ledMode = s.ledMode := rfl
@[simp] theorem toggleBorder_borderD : (toggleBorder s).borderD = !s.borderD := rfl
@[simp] theorem toggleBorder_ledPin : (toggleBorder s).ledPin = s.ledPin := rfl
@[simp] theorem toggleBorder_prevLvl : (toggleBorder s).prevLvl = s.prevLvl := rfl
@[simp] theorem toggleBorder_pwmR : (toggleBorder s).pwmR = s.pwmR := rfl
@[simp] theorem toggleBorder_pwmB : (toggleBorder s).pwmB = s.pwmB := rfl
@[simp] theorem toggleBorder_pixX : (toggleBorder s).pixX = s.pixX := rfl
@[simp] theorem toggleBorder_pixY : (toggleBorder s).pixY = s.pixY := rfl
@[simp] theorem toggleBorder_fault : (toggleBorder s).fault = s.fault := rfl
@[simp] theorem toggleBorder_fcause : (toggleBorder s).fcause = s.fcause := rfl
@[simp] theorem toggleBorder_halted : (toggleBorder s).halted = s.halted := rfl
@[simp] theorem toggleBorder_evlog : (toggleBorder s).evlog = s.evlog ++ [.border (!s.borderD)] := rfl
@[simp] theorem toggleBorder_cfg : (toggleBorder s).cfg = s.cfg := rfl
@[simp] theorem toggleBorder_host : (toggleBorder s).host = s.host := rfl

end toggleBorderFields

section clampSampleFields

variable (raw : Raw) (s : State)

@[simp] theorem clampSample_offX : (clampSample raw s).offX = s.offX := rfl
@[simp] theorem clampSample_offY : (clampSample raw s).offY = s.offY := rfl
@[simp] theorem clampSample_calDone : (clampSample raw s).calDone = s.calDone := rfl
@[simp] theorem clampSample_sx : (clampSample raw s).sx = s.sx := rfl
@[simp] theorem clampSample_sy : (clampSample raw s).sy = BitVec.ofInt 12 (clamp (adjusted raw s.offY) 0 s.cfg.adcMax) := rfl
@[simp] theorem clampSample_lastEv : (clampSample raw s).lastEv = s.lastEv := rfl
@[simp] theorem clampSample_ledMode : (clampSample raw s).ledMode = s.ledMode := rfl
@[simp] theorem clampSample_borderD : (clampSample raw s).borderD = s.borderD := rfl
@[simp] theorem clampSample_ledPin : (clampSample raw s).ledPin = s.ledPin := rfl
@[simp] theorem clampSample_prevLvl : (clampSample raw s).prevLvl = s.prevLvl := rfl
@[simp] theorem clampSample_pwmR : (clampSample raw s).pwmR = s.pwmR := rfl
@[simp] theorem clampSample_pwmB : (clampSample raw s).pwmB = s.pwmB := rfl
@[simp] theorem clampSample_pixX : (clampSample raw s).pixX = s.pixX := rfl
@[simp] theorem clampSample_pixY : (clampSample raw s).pixY = s.pixY := rfl
@[simp] theorem clampSample_fault : (clampSample raw s).fault = s.fault := rfl
@[simp] theorem clampSample_fcause : (clampSample raw s).fcause = s.fcause := rfl
@[simp] theorem clampSample_halted : (clampSample raw s).halted = s.halted := rfl
@[simp] theorem clampSample_evlog : (clampSample raw s).evlog = s.evlog := rfl
@[simp] theorem clampSample_cfg : (clampSample raw s).cfg = s.cfg := rfl
@[simp] theorem clampSample_host : (clampSample raw s).host = s.host := rfl

end clampSampleFields

section applyDutiesFields

variable (rb : Nat × Nat) (s : State)

@[simp] theorem applyDuties_offX : (applyDuties rb s).offX = s.offX := rfl
@[simp] theorem applyDuties_offY : (applyDuties rb s).offY = s.offY := rfl
@[simp] theorem applyDuties_calDone : (applyDuties rb s).calDone = s.calDone := rfl
@[simp] theorem applyDuties_sx : (applyDuties rb s).sx = s.sx := rfl
@[simp] theorem applyDuties_sy : (applyDuties rb s).sy = s.sy := rfl
@[simp] theorem applyDuties_lastEv : (applyDuties rb s).lastEv = s.lastEv := rfl
@[simp] theorem applyDuties_ledMode : (applyDuties rb s).ledMode = s.ledMode := rfl
@[simp] theorem applyDuties_borderD : (applyDuties rb s).borderD = s.borderD := rfl
@[simp] theorem applyDuties_ledPin : (applyDuties rb s).ledPin = s.ledPin := rfl
@[simp] theorem applyDuties_prevLvl : (applyDuties rb s).prevLvl = s.prevLvl := rfl
@[simp] theorem applyDuties_pwmR : (applyDuties rb s).pwmR = BitVec.ofNat 16 rb.1 := rfl
@[simp] theorem applyDuties_pwmB : (applyDuties rb s).pwmB = BitVec.ofNat 16 rb.2 := rfl
@[simp] theorem applyDuties_pixX : (applyDuties rb s).pixX = s.pixX := rfl
@[simp] theorem applyDuties_pixY : (applyDuties rb s).pixY = s.pixY := rfl
@[simp] theorem applyDuties_fault : (applyDuties rb s).fault = s.fault := rfl
@[simp] theorem applyDuties_fcause : (applyDuties rb s).fcause = s.fcause := rfl
@[simp] theorem applyDuties_halted : (applyDuties rb s).halted = s.halted := rfl
@[simp] theorem applyDuties_evlog : (applyDuties rb s).evlog = s.evlog ++ [.setDuty .r rb.1] ++ [.setDuty .b rb.2] := rfl
@[simp] theorem applyDuties_cfg : (applyDuties rb s).cfg = s.cfg := rfl
@[simp] theorem applyDuties_host : (applyDuties rb s).host = s.host := rfl

end applyDutiesFields

section renderAtFields

variable (x y : Nat) (s : State)

@[simp] theorem renderAt_offX : (renderAt x y s).offX = s.offX := rfl
@[simp] theorem renderAt_offY : (renderAt x y s).offY = s.offY := rfl
@[simp] theorem renderAt_calDone : (renderAt x y s).calDone = s.calDone := rfl
@[simp] theorem renderAt_sx : (renderAt x y s).sx = s.sx := rfl
@[simp] theorem renderAt_sy : (renderAt x y s).sy = s.sy := rfl
@[simp] theorem renderAt_lastEv : (renderAt x y s).lastEv = s.lastEv := rfl
@[simp] theorem renderAt_ledMode : (renderAt x y s).ledMode = s.ledMode := rfl
@[simp] theorem renderAt_borderD : (renderAt x y s).borderD = s.borderD := rfl
@[simp] theorem renderAt_ledPin : (renderAt x y s).ledPin = s.ledPin := rfl
@[simp] theorem renderAt_prevLvl : (renderAt x y s).prevLvl = s.prevLvl := rfl
@[simp] theorem renderAt_pwmR : (renderAt x y s).pwmR = s.pwmR := rfl
@[simp] theorem renderAt_pwmB : (renderAt x y s).pwmB = s.pwmB := rfl
@[simp] theorem renderAt_pixX : (renderAt x y s).pixX = BitVec.ofNat 8 x := rfl
@[simp] theorem renderAt_pixY : (renderAt x y s).pixY = BitVec.ofNat 8 y := rfl
@[simp] theorem renderAt_fault : (renderAt x y s).fault = s.fault := rfl
@[simp] theorem renderAt_fcause : (renderAt x y s).fcause = s.fcause := rfl
@[simp] theorem renderAt_halted : (renderAt x y s).halted = s.halted := rfl
@[simp] theorem renderAt_evlog : (renderAt x y s).evlog = s.evlog ++ [.clear] ++ [.border s.borderD] ++ [.rect x y s.cfg.marker s.cfg.marker true] ++ [.flush] := rfl
@[simp] theorem renderAt_cfg : (renderAt x y s).cfg = s.cfg := rfl
@[simp] theorem renderAt_host : (renderAt x y s).host = s.host := rfl

end renderAtFields

section nextTurnFields

variable (now : Time) (rest : List Turn) (s : State)

@[simp] theorem nextTurn_offX : (nextTurn now rest s).offX = s.offX := rfl
@[simp] theorem nextTurn_offY : (nextTurn now rest s).offY = s.offY := rfl
@[simp] theorem nextTurn_calDone : (nextTurn now rest s).calDone = s.calDone := rfl
@[simp] theorem nextTurn_sx : (nextTurn now rest s).sx = s.sx := rfl
@[simp] theorem nextTurn_sy : (nextTurn now rest s).sy = s.sy := rfl
@[simp] theorem nextTurn_lastEv : (nextTurn now rest s).lastEv = s.lastEv := rfl
@[simp] theorem nextTurn_ledMode : (nextTurn now rest s).ledMode = s.ledMode := rfl
@[simp] theorem nextTurn_borderD : (nextTurn now rest s).borderD = s.borderD := rfl
@[simp] theorem nextTurn_ledPin : (nextTurn now rest s).ledPin = s.ledPin := rfl
@[simp] theorem nextTurn_prevLvl : (nextTurn now rest s).prevLvl = s.prevLvl := rfl
@[simp] theorem nextTurn_pwmR : (nextTurn now rest s).pwmR = s.pwmR := rfl
@[simp] theorem nextTurn_pwmB : (nextTurn now rest s).pwmB = s.pwmB := rfl
@[simp] theorem nextTurn_pixX : (nextTurn now rest s).pixX = s.pixX := rfl
@[simp] theorem nextTurn_pixY : (nextTurn now rest s).pixY = s.pixY := rfl
@[simp] theorem nextTurn_fault : (nextTurn now rest s).fault = s.fault := rfl
@[simp] theorem nextTurn_fcause : (nextTurn now rest s).fcause = s.fcause := rfl
@[simp] theorem nextTurn_halted : (nextTurn now rest s).halted = s.halted := rfl
@[simp] theorem nextTurn_evlog : (nextTurn now rest s).evlog = s.evlog := rfl
@[simp] theorem nextTurn_cfg : (nextTurn now rest s).cfg = s.cfg := rfl
@[simp] theorem nextTurn_host : (nextTurn now rest s).host = { s.host with nowMs := now, turns := rest } := rfl

end nextTurnFields

section setOffsetFields

variable (ax : Axis) (v : Offset) (s : State)

@[simp] theorem setOffset_x_offX : (setOffset .x v s).offX = v := rfl
@[simp] theorem setOffset_y_offX : (setOffset .y v s).offX = s.offX := rfl
@[simp] theorem setOffset_x_offY : (setOffset .x v s).offY = s.offY := rfl
@[simp] theorem setOffset_y_offY : (setOffset .y v s).offY = v := rfl
@[simp] theorem setOffset_calDone : (setOffset ax v s).calDone = s.calDone := by cases ax <;> rfl
@[simp] theorem setOffset_sx : (setOffset ax v s).sx = s.sx := by cases ax <;> rfl
@[simp] theorem setOffset_sy : (setOffset ax v s).sy = s.sy := by cases ax <;> rfl
@[simp] theorem setOffset_lastEv : (setOffset ax v s).lastEv = s.lastEv := by cases ax <;> rfl
@[simp] theorem setOffset_ledMode : (setOffset ax v s).ledMode = s.ledMode := by cases ax <;> rfl
@[simp] theorem setOffset_borderD : (setOffset ax v s).borderD = s.borderD := by cases ax <;> rfl
@[simp] theorem setOffset_ledPin : (setOffset ax v s).ledPin = s.ledPin := by cases ax <;> rfl
@[simp] theorem setOffset_prevLvl : (setOffset ax v s).prevLvl = s.prevLvl := by cases ax <;> rfl
@[simp] theorem setOffset_pwmR : (setOffset ax v s).pwmR = s.pwmR := by cases ax <;> rfl
@[simp] theorem setOffset_pwmB : (setOffset ax v s).pwmB = s.pwmB := by cases ax <;> rfl
@[simp] theorem setOffset_pixX : (setOffset ax v s).pixX = s.pixX := by cases ax <;> rfl
@[simp] theorem setOffset_pixY : (setOffset ax v s).pixY = s.pixY := by cases ax <;> rfl
@[simp] theorem setOffset_fault : (setOffset ax v s).fault = s.fault := by cases ax <;> rfl
@[simp] theorem setOffset_fcause : (setOffset ax v s).fcause = s.fcause := by cases ax <;> rfl
@[simp] theorem setOffset_halted : (setOffset ax v s).halted = s.halted := by cases ax <;> rfl
@[simp] theorem setOffset_evlog : (setOffset ax v s).evlog = s.evlog := by cases ax <;> rfl
@[simp] theorem setOffset_cfg : (setOffset ax v s).cfg = s.cfg := by cases ax <;> rfl
@[simp] theorem setOffset_host : (setOffset ax v s).host = s.host := by cases ax <;> rfl

end setOffsetFields

section setOfferedFields

variable (agent : Agent) (rest : List Word) (s : State)

@[simp] theorem setOffered_offX : (setOffered agent rest s).offX = s.offX := by cases agent <;> rfl
@[simp] theorem setOffered_offY : (setOffered agent rest s).offY = s.offY := by cases agent <;> rfl
@[simp] theorem setOffered_calDone : (setOffered agent rest s).calDone = s.calDone := by cases agent <;> rfl
@[simp] theorem setOffered_sx : (setOffered agent rest s).sx = s.sx := by cases agent <;> rfl
@[simp] theorem setOffered_sy : (setOffered agent rest s).sy = s.sy := by cases agent <;> rfl
@[simp] theorem setOffered_lastEv : (setOffered agent rest s).lastEv = s.lastEv := by cases agent <;> rfl
@[simp] theorem setOffered_ledMode : (setOffered agent rest s).ledMode = s.ledMode := by cases agent <;> rfl
@[simp] theorem setOffered_borderD : (setOffered agent rest s).borderD = s.borderD := by cases agent <;> rfl
@[simp] theorem setOffered_ledPin : (setOffered agent rest s).ledPin = s.ledPin := by cases agent <;> rfl
@[simp] theorem setOffered_prevLvl : (setOffered agent rest s).prevLvl = s.prevLvl := by cases agent <;> rfl
@[simp] theorem setOffered_pwmR : (setOffered agent rest s).pwmR = s.pwmR := by cases agent <;> rfl
@[simp] theorem setOffered_pwmB : (setOffered agent rest s).pwmB = s.pwmB := by cases agent <;> rfl
@[simp] theorem setOffered_pixX : (setOffered agent rest s).pixX = s.pixX := by cases agent <;> rfl
@[simp] theorem setOffered_pixY : (setOffered agent rest s).pixY = s.pixY := by cases agent <;> rfl
@[simp] theorem setOffered_fault : (setOffered agent rest s).fault = s.fault := by cases agent <;> rfl
@[simp] theorem setOffered_fcause : (setOffered agent rest s).fcause = s.fcause := by cases agent <;> rfl
@[simp] theorem setOffered_halted : (setOffered agent rest s).halted = s.halted := by cases agent <;> rfl
@[simp] theorem setOffered_evlog : (setOffered agent rest s).evlog = s.evlog := by cases agent <;> rfl
@[simp] theorem setOffered_cfg : (setOffered agent rest s).cfg = s.cfg := by cases agent <;> rfl
@[simp] theorem setOffered_tick_host : (setOffered .tick rest s).host = { s.host with tickCmds := rest } := rfl
@[simp] theorem setOffered_edge_host : (setOffered .edge rest s).host = { s.host with edgeCmds := rest } := rfl
@[simp] theorem setOffered_nowMs : (setOffered agent rest s).host.nowMs = s.host.nowMs := by cases agent <;> rfl
@[simp] theorem setOffered_turns : (setOffered agent rest s).host.turns = s.host.turns := by cases agent <;> rfl

end setOfferedFields

/-- RST leaves the reset values beside the parameters and the inputs (70_reset_and_hazards.md R127). -/
@[simp] theorem resetElements_cfg (s : State) : (resetElements s).cfg = s.cfg := rfl

@[simp] theorem resetElements_host (s : State) : (resetElements s).host = s.host := rfl

end Sys2Proof.Machine
end

