-- ==== Sys2Proof/Laws/Ops.lean ====
section
/-! SUPPORT. What each shared operation can do, said once: the gate, the dispatch of an accepted edge, the loop of LEVELS, a
capture of an offset, and each command's meaning as its next state. -/

namespace Sys2Proof.Machine

@[simp] theorem now_eq (s : State) : s.now = s.host.nowMs := rfl

/-- An edge is ignored exactly when it is not later than the window (41_debounce.md R82). -/
theorem gate_eq_none_iff (s : State) : gate s = none ↔ elapsedSince s.lastEv s.host.nowMs ≤ s.cfg.debounceMs := by
  unfold gate; split <;> simp_all

/-- An accepted edge writes LAST_EV and nothing else (41_debounce.md R82). -/
theorem gate_eq_some_iff (s t : State) :
    gate s = some t ↔
      s.cfg.debounceMs < elapsedSince s.lastEv s.host.nowMs ∧ t = { s with lastEv := s.host.nowMs } := by
  by_cases h : elapsedSince s.lastEv s.host.nowMs ≤ s.cfg.debounceMs
  · rw [(gate_eq_none_iff s).2 h]
    simp; omega
  · rw [gate, now_eq, if_neg h, Option.some.injEq]
    exact ⟨fun e => ⟨by omega, e.symm⟩, fun e => e.2.symm⟩

/-- Right after an accepted edge the gate is shut at the same time (41_debounce.md R90). -/
theorem gate_shut {s : State} (h : s.lastEv = s.host.nowMs) : gate s = none := by
  rw [gate_eq_none_iff, h]; simp

@[simp] theorem dispatch_lastEv (p : Input) (s : State) : (dispatch p s).lastEv = s.lastEv := by
  cases p <;> simp [dispatch, requestBoot]

@[simp] theorem dispatch_host (p : Input) (s : State) : (dispatch p s).host = s.host := by
  cases p <;> simp [dispatch, requestBoot]

@[simp] theorem dispatch_cfg (p : Input) (s : State) : (dispatch p s).cfg = s.cfg := by
  cases p <;> simp [dispatch, requestBoot]

/-- The dispatch writes the mode, the border, the pin, HALTED and the log, and nothing else (41_debounce.md R87, R95). -/
theorem dispatch_frame (p : Input) (s : State) :
    dispatch p s =
      { s with
        ledMode := (dispatch p s).ledMode
        borderD := (dispatch p s).borderD
        ledPin := (dispatch p s).ledPin
        halted := (dispatch p s).halted
        evlog := (dispatch p s).evlog } := by
  cases p <;> rfl

/-- One edge, whole (41_debounce.md R82, R87, R88). -/
theorem presentEdge_eq (p : Input) (s : State) :
    presentEdge p s =
      if elapsedSince s.lastEv s.host.nowMs ≤ s.cfg.debounceMs then s
      else dispatch p { s with lastEv := s.host.nowMs } := by
  unfold presentEdge gate
  simp only [now_eq]
  by_cases h : elapsedSince s.lastEv s.host.nowMs ≤ s.cfg.debounceMs <;> simp [h]

/-- With the gate shut the loop of LEVELS changes nothing. -/
theorem gateFalls_of_shut (fall : Levels) (ps : List Input) {s : State} (h : gate s = none) :
    gateFalls fall ps s = s := by
  induction ps with
  | nil => rfl
  | cons p ps ih => simp [gateFalls, h, ih]

/-- The loop of LEVELS is one edge on the first input that fell: those after it are shut out (41_debounce.md R90). -/
theorem gateFalls_eq (fall : Levels) (ps : List Input) (s : State) :
    gateFalls fall ps s =
      match ps.find? (hasFall fall) with
      | none => s
      | some p => presentEdge p s := by
  induction ps with
  | nil => rfl
  | cons p ps ih =>
    by_cases hp : hasFall fall p
    · simp only [gateFalls, hp, if_true, List.find?_cons_of_pos, presentEdge]
      cases hg : gate s with
      | none => simp only; exact gateFalls_of_shut fall ps hg
      | some t =>
        obtain ⟨-, rfl⟩ := (gate_eq_some_iff s t).1 hg
        simp only
        split
        · rfl
        · exact gateFalls_of_shut fall ps (gate_shut (by simp))
    · simp [gateFalls, hp, ih]

/-- A capture of an offset, whole (40_calibrate_sample.md R69, R70). -/
theorem captureOffset_cases (ax : Axis) (raw : Raw) (s : State) :
    (isCalibrated s.calDone ax = true ∧ captureOffset ax raw s = raiseFault .recalibration s) ∨
    (isCalibrated s.calDone ax = false ∧
      captureOffset ax raw s =
        setCalDone (setCalibrated s.calDone ax) (setOffset ax (BitVec.ofInt 16 (offsetFor s.cfg raw)) s)) := by
  unfold captureOffset
  cases isCalibrated s.calDone ax <;> simp

/-- The hold filter, whole (40_calibrate_sample.md R75). -/
theorem holdSample_cases (raw : Raw) (s : State) :
    ((0 ≤ adjusted raw s.offX ∧ adjusted raw s.offX ≤ s.cfg.adcMax) ∧
      holdSample raw s = { s with sx := BitVec.ofInt 12 (adjusted raw s.offX) }) ∨
    (¬(0 ≤ adjusted raw s.offX ∧ adjusted raw s.offX ≤ s.cfg.adcMax) ∧ holdSample raw s = s) := by
  unfold holdSample
  split <;> simp_all

theorem isCalibrated_x (d : BitVec 2) : isCalibrated d .x = d.getLsbD 0 := by revert d; decide

theorem isCalibrated_y (d : BitVec 2) : isCalibrated d .y = d.getLsbD 1 := by revert d; decide

theorem setCalibrated_x (d : BitVec 2) :
    (setCalibrated d .x).getLsbD 0 = true ∧ (setCalibrated d .x).getLsbD 1 = d.getLsbD 1 := by revert d; decide

theorem setCalibrated_y (d : BitVec 2) :
    (setCalibrated d .y).getLsbD 1 = true ∧ (setCalibrated d .y).getLsbD 0 = d.getLsbD 0 := by revert d; decide

/-- `(code + 1) mod 4`, in numbers (41_debounce.md R85). -/
theorem nextMode_toNat (c : BitVec 2) : (nextMode c).toNat = (c.toNat + 1) % 4 := by revert c; decide

section Meanings

variable (s : State)

theorem exec_calx (raw : Raw) : exec (.calx raw) s = .next (captureOffset .x raw s) := rfl

theorem exec_caly (raw : Raw) : exec (.caly raw) s = .next (captureOffset .y raw s) := rfl

theorem exec_sampx (raw : Raw) : exec (.sampx raw) s = .next (holdSample raw s) := rfl

theorem exec_sampy (raw : Raw) : exec (.sampy raw) s = .next (clampSample raw s) := rfl

theorem exec_edge_a : exec (.edge 0b00#2) s = .next (presentEdge .a s) := rfl

theorem exec_edge_b : exec (.edge 0b01#2) s = .next (presentEdge .b s) := rfl

theorem exec_edge_c : exec (.edge 0b10#2) s = .next (presentEdge .c s) := rfl

theorem exec_edge_reserved : exec (.edge 0b11#2) s = .next (raiseFault .reservedPin s) := rfl

/-- EDGE by its pin: the three inputs and the reserved value (30_encoding.md R60). -/
theorem exec_edge_cases (pin : BitVec 2) :
    (pin = 0b11#2 ∧ exec (.edge pin) s = .next (raiseFault .reservedPin s)) ∨
    (∃ p, inputOfPin pin = some p ∧ pin ≠ 0b11#2 ∧ exec (.edge pin) s = .next (presentEdge p s)) := by
  have h : pin = 0b00#2 ∨ pin = 0b01#2 ∨ pin = 0b10#2 ∨ pin = 0b11#2 := by revert pin; decide
  rcases h with rfl | rfl | rfl | rfl
  · exact .inr ⟨.a, rfl, by decide, rfl⟩
  · exact .inr ⟨.b, rfl, by decide, rfl⟩
  · exact .inr ⟨.c, rfl, by decide, rfl⟩
  · exact .inl ⟨rfl, rfl⟩

/-- LEVELS: `PREV_LVL`, then one edge on the lowest input that fell (41_debounce.md R89, R90). -/
theorem exec_levels (lvl : Levels) :
    exec (.levels lvl) s =
      .next
        (match gateOrder.find? (hasFall (fallingEdges s.prevLvl lvl)) with
        | none => setPrevLvl lvl s
        | some p => presentEdge p (setPrevLvl lvl s)) := by
  rw [← gateFalls_eq]; rfl

theorem exec_map : exec .map s = .next (applyDuties (mappedDuties s) s) := rfl

theorem exec_pix : exec .pix s = .next (renderAt (px s.cfg s.sx.toNat) (py s.cfg s.sy.toNat) s) := rfl

end Meanings

end Sys2Proof.Machine
end

