-- ==== Sys2Proof/Laws/PerInstr.lean ====
section
/-! SUPPORT. For each command: its word lies in its row of the opcode map and leaves every reserved bit 0, whatever the
operands (30_encoding.md R57, R62). -/

namespace Sys2Proof.Laws.EncodeSelectsRow

/-- The opcode of a command. -/
def opcodeOf : Instr → Opcode
  | .calx _ => .calx
  | .caly _ => .caly
  | .sampx _ => .sampx
  | .sampy _ => .sampy
  | .edge _ => .edge
  | .levels _ => .levels
  | .map => .map
  | .pix => .pix

/-- `(word AND mask) = match` for the word of the command. -/
def Statement (i : Instr) : Prop := encode i &&& (opcodeOf i).format.mask = (opcodeOf i).matchWord

/-- An operand field narrower than the mask's zeros leaves the row's bits alone. -/
theorem row_of_field {n : Nat} (m k : Word) (v : BitVec n) (hm : m &&& k = m)
    (hk : ∀ j < 32, n ≤ j ∨ k.getLsbD j = false) : (m ||| v.setWidth 32) &&& k = m := by
  rw [and_above_operand m k v hk, hm]

theorem calx (raw : Raw) : Statement (.calx raw) :=
  row_of_field Opcode.calx.matchWord Opcode.calx.format.mask raw (by decide) (by decide)

theorem caly (raw : Raw) : Statement (.caly raw) :=
  row_of_field Opcode.caly.matchWord Opcode.caly.format.mask raw (by decide) (by decide)

theorem sampx (raw : Raw) : Statement (.sampx raw) :=
  row_of_field Opcode.sampx.matchWord Opcode.sampx.format.mask raw (by decide) (by decide)

theorem sampy (raw : Raw) : Statement (.sampy raw) :=
  row_of_field Opcode.sampy.matchWord Opcode.sampy.format.mask raw (by decide) (by decide)

theorem edge (pin : BitVec 2) : Statement (.edge pin) :=
  row_of_field Opcode.edge.matchWord Opcode.edge.format.mask pin (by decide) (by decide)

theorem levels (lvl : Levels) : Statement (.levels lvl) :=
  row_of_field Opcode.levels.matchWord Opcode.levels.format.mask lvl (by decide) (by decide)

theorem map : Statement .map := rfl

theorem pix : Statement .pix := rfl

end Sys2Proof.Laws.EncodeSelectsRow
end

