-- ==== Sys2Proof/Laws/Step.lean ====
section
/-! SUPPORT. What a step can do, said once: the inversion of a turn, and the unfolding of a run. -/

namespace Sys2Proof.Machine

section Turns

variable {s : State} {agent : Agent} {now : Time} {rest : List Turn}

/-- With no turn left DWED holds its state (60_exceptions.md R126). -/
theorem step_no_turn (ht : s.host.turns = []) : step s = .next s := by
  simp only [step, takeTurn, ht]

/-- RST (70_reset_and_hazards.md R127). -/
theorem step_rst (ht : s.host.turns = .rst :: rest) :
    step s = .next (resetElements (nextTurn s.host.nowMs rest s)) := by
  simp only [step, takeTurn, ht]

/-- While HALTED is 1 a command is not performed and not consumed (60_exceptions.md R121). -/
theorem step_halted (ht : s.host.turns = .perform agent now :: rest) (hh : s.halted = true) :
    step s = .next (nextTurn now rest s) := by
  simp only [step, takeTurn, ht, performTurn]
  rw [if_pos hh]

/-- With nothing offered nothing is performed. -/
theorem step_nothing_offered (ht : s.host.turns = .perform agent now :: rest) (ho : offered s agent = []) :
    step s = .next (nextTurn now rest s) := by
  simp only [step, takeTurn, ht, performTurn, ho]
  split <;> rfl

/-- A command that reaches a DWED that is not halted is performed. -/
theorem step_offered {w : Word} {ws : List Word} (ht : s.host.turns = .perform agent now :: rest)
    (hh : s.halted = false) (ho : offered s agent = w :: ws) :
    step s = performWord w (setOffered agent ws (nextTurn now rest s)) := by
  simp only [step, takeTurn, ht, performTurn, ho]
  rw [if_neg (by simp [hh])]

/-- A legal word is performed as its command (30_encoding.md R64). -/
theorem performWord_ok {w : Word} {i : Instr} (h : decode w = .ok i) (u : State) : performWord w u = exec i u := by
  simp only [performWord, h]

/-- An illegal word raises its decode fault (30_encoding.md R63). -/
theorem performWord_error {w : Word} {e : Illegal} (h : decode w = .error e) (u : State) :
    performWord w u = .next (raiseFault (illegalCode e) u) := by
  simp only [performWord, h]

end Turns

/-- Everything one step can do (30_encoding.md R64; 60_exceptions.md R121, R126; 70_reset_and_hazards.md R129). -/
theorem step_cases (s : State) :
    (s.host.turns = [] ∧ step s = .next s) ∨
    (∃ rest, s.host.turns = .rst :: rest ∧
      step s = .next (resetElements (nextTurn s.host.nowMs rest s))) ∨
    (∃ agent now rest, s.host.turns = .perform agent now :: rest ∧
      (s.halted = true ∨ offered s agent = []) ∧ step s = .next (nextTurn now rest s)) ∨
    (∃ agent now rest w ws e, s.host.turns = .perform agent now :: rest ∧ s.halted = false ∧
      offered s agent = w :: ws ∧ decode w = .error e ∧
      step s = .next (raiseFault (illegalCode e) (setOffered agent ws (nextTurn now rest s)))) ∨
    (∃ agent now rest w ws i, s.host.turns = .perform agent now :: rest ∧ s.halted = false ∧
      offered s agent = w :: ws ∧ decode w = .ok i ∧
      step s = exec i (setOffered agent ws (nextTurn now rest s))) := by
  cases ht : s.host.turns with
  | nil => exact .inl ⟨rfl, step_no_turn ht⟩
  | cons t rest =>
    right
    cases t with
    | rst => exact .inl ⟨rest, rfl, step_rst ht⟩
    | perform agent now =>
      right
      cases hh : s.halted with
      | true => exact .inl ⟨agent, now, rest, rfl, .inl rfl, step_halted ht hh⟩
      | false =>
        cases ho : offered s agent with
        | nil => exact .inl ⟨agent, now, rest, rfl, .inr ho, step_nothing_offered ht ho⟩
        | cons w ws =>
          right
          cases hd : decode w with
          | error e =>
            exact .inl ⟨agent, now, rest, w, ws, e, rfl, rfl, ho, hd,
              (step_offered ht hh ho).trans (performWord_error hd _)⟩
          | ok i =>
            exact .inr ⟨agent, now, rest, w, ws, i, rfl, rfl, ho, hd,
              (step_offered ht hh ho).trans (performWord_ok hd _)⟩

/-- One more step of a run, on any machine. -/
theorem core_run_succ (M : Host.Core) (n : Nat) {s t : M.State} (h : M.step s = .next t) :
    M.run (n + 1) s = M.run n t := by
  rw [Host.Core.run, h]

/-- One more step of a run. -/
theorem run_succ (n : Nat) {s t : State} (h : step s = .next t) :
    Host.Core.run core (n + 1) s = Host.Core.run core n t := core_run_succ core n h

@[simp] theorem run_zero (s : State) : Host.Core.run core 0 s = .next s := rfl

end Sys2Proof.Machine
end

