-- ==== Sys2Proof/Tests/Slice0.lean ====
section
/-! SUPPORT. The model's own tests, with expected results from the spec's own tables (30_encoding.md R58, R68; 95_test_vectors.md
L1, L2), and for every statement with hypotheses a witness `witness_<Name>`: concrete operands and states that meet them all,
clause by clause where a statement has several. -/

namespace Sys2Proof.Tests

open Sys2Proof.Machine

/-- The next state of an outcome, if it is one. -/
def after (o : Outcome) : Option State :=
  match o with
  | .next s => some s
  | .fault _ => none
  | .refused _ => none

/-- The state after reset, with NOW_MS at `now`. -/
def startAt (now : Nat) : State := atTime (BitVec.ofNat 32 now) State.reset

/-- The state after reset, with this schedule and these offers. -/
def hosted (tick edge : List Word) (turns : List Turn) : State :=
  { State.reset with host := ⟨0#32, tick, edge, turns⟩ }

/-- One step of `w` offered by the tick agent to the state `s`. -/
def stepOn (s : State) (w : Word) : Option State := after (step (presentNext w s))

/-! ### Well-formedness, decoding, encoding -/

theorem test_wellFormed_refuses_pin3 : ¬WellFormed (.edge 0b11#2) := by decide

theorem test_wellFormed_accepts_pins :
    WellFormed (.edge 0b00#2) ∧ WellFormed (.edge 0b01#2) ∧ WellFormed (.edge 0b10#2) := by decide

/-- R58, F_RAW: opcode, sixteen reserved bits, then raw = 0x801 (both ends of the field). -/
theorem test_decode_raw_bits :
    decode 0b0001_0000000000000000_100000000001#32 = .ok (.calx 0x801#12) ∧
    decode 0b0010_0000000000000000_100000000001#32 = .ok (.caly 0x801#12) ∧
    decode 0b0011_0000000000000000_100000000001#32 = .ok (.sampx 0x801#12) ∧
    decode 0b0100_0000000000000000_100000000001#32 = .ok (.sampy 0x801#12) := ⟨rfl, rfl, rfl, rfl⟩

/-- R58, F_PIN and F_LVL. -/
theorem test_decode_pin_lvl_bits :
    decode 0b0101_00000000000000000000000000_10#32 = .ok (.edge 0b10#2) ∧
    decode 0b0101_00000000000000000000000000_01#32 = .ok (.edge 0b01#2) ∧
    decode 0b0110_0000000000000000000000000_110#32 = .ok (.levels 0b110#3) ∧
    decode 0b0110_0000000000000000000000000_001#32 = .ok (.levels 0b001#3) := ⟨rfl, rfl, rfl, rfl⟩

/-- R58, F_NONE. -/
theorem test_decode_none_bits :
    decode 0b0111_0000000000000000000000000000#32 = .ok .map ∧
    decode 0b1000_0000000000000000000000000000#32 = .ok .pix := ⟨rfl, rfl⟩

/-- L2.6, the Outcome column of the illegal words. -/
theorem test_decode_illegal :
    decode 0x00000000#32 = .error .illegalOpcode ∧ decode 0xF0000000#32 = .error .illegalOpcode ∧
    decode 0x9FFFFFFF#32 = .error .illegalOpcode ∧ decode 0x10001000#32 = .error .reservedBits ∧
    decode 0x40008000#32 = .error .reservedBits ∧ decode 0x50000004#32 = .error .reservedBits ∧
    decode 0x5FFFFFFF#32 = .error .reservedBits ∧ decode 0x50000003#32 = .error .reservedPin ∧
    decode 0x6000000F#32 = .error .reservedBits ∧ decode 0x70000001#32 = .error .reservedBits ∧
    decode 0x80000010#32 = .error .reservedBits :=
  ⟨rfl, rfl, rfl, rfl, rfl, rfl, rfl, rfl, rfl, rfl, rfl⟩

/-- R68, the Word column. -/
theorem test_encode_worked :
    encode (.calx 2048#12) = 0x10000800#32 ∧ encode (.sampx 4090#12) = 0x30000FFA#32 ∧
    encode (.sampy 4095#12) = 0x40000FFF#32 ∧ encode (.edge 0b10#2) = 0x50000002#32 ∧
    encode (.levels 0b110#3) = 0x60000006#32 ∧ encode .pix = 0x80000000#32 := by decide

/-- R62: "No word selects two commands." -/
theorem test_no_two_rows_overlap : opcodeTable.Pairwise (fun r q => r.overlaps q = false) := by decide

theorem test_decodeTableWord :
    decodeTableWord 32 0x60000005 = some (.levels 0b101#3) ∧ decodeTableWord 32 0x50000003 = none := ⟨rfl, rfl⟩

/-- R40: the same four bytes in the two orders. -/
theorem test_wordOfBytes :
    wordOfBytes .mostSignificantFirst 0x10#8 0x00#8 0x08#8 0x01#8 = 0x10000801#32 ∧
    wordOfBytes .leastSignificantFirst 0x01#8 0x08#8 0x00#8 0x10#8 = 0x10000801#32 := by decide

/-- R66, R68: any case, hex and binary operands, a comment, an annotation. -/
theorem test_assemble_lines :
    assembleLine ['c', 'a', 'l', 'X', ' ', '2', '0', '4', '8'] = some ⟨[.calx 2048#12], none⟩ ∧
    assembleLine ['S', 'A', 'M', 'P', 'X', ' ', '0', 'x', 'F', 'F', 'A', ' ', ';', 'h'] =
      some ⟨[.sampx 4090#12], none⟩ ∧
    assembleLine ['E', 'D', 'G', 'E', ' ', 'C', ' ', '@', 't', '=', '5', '0', '0'] =
      some ⟨[.edge 0b10#2], some 500#32⟩ ∧
    assembleLine ['L', 'E', 'V', 'E', 'L', 'S', ' ', '0', 'b', '1', '1', '0'] = some ⟨[.levels 0b110#3], none⟩ := by
  decide

/-- R66 "rejects an operand outside its range"; R67's expansion. -/
theorem test_assemble_range_and_pseudo :
    assembleLine ['C', 'A', 'L', 'X', ' ', '4', '0', '9', '6'] = none ∧
    assembleLine ['L', 'E', 'V', 'E', 'L', 'S', ' ', '8'] = none ∧
    assembleLine ['E', 'D', 'G', 'E', ' ', 'D'] = none ∧
    assembleLine ['T', 'I', 'C', 'K', ' ', '1', ',', ' ', '2'] =
      some ⟨[.sampx 1#12, .sampy 2#12, .pix, .map], none⟩ := by decide

/-! ### Commands -/

/-- L2.1 -/
theorem test_calx_offsets :
    (after (exec (.calx 0#12) State.reset)).map (·.offX.toInt) = some 2048 ∧
    (after (exec (.calx 4095#12) State.reset)).map (·.offX.toInt) = some (-2047) ∧
    (after (exec (.calx 2038#12) State.reset)).map (fun t => (t.offX.toInt, t.calDone)) = some (10, 0b01#2) := by
  decide

/-- L2.1 -/
theorem test_calx_twice_faults :
    (after (exec (.calx 7#12) { State.reset with calDone := 0b01#2 })).map
      (fun t => (t.fault, t.fcause, t.offX)) = some (true, 4#4, 0#16) := by decide

/-- L2.1 -/
theorem test_caly_offset :
    (after (exec (.caly 2100#12) State.reset)).map (fun t => (t.offY.toInt, t.calDone)) = some (-52, 0b10#2) := by
  decide

/-- L2.1: the other axis's bit does not count. -/
theorem test_caly_after_calx :
    (after (exec (.caly 7#12) { State.reset with calDone := 0b01#2 })).map
      (fun t => (t.offY.toInt, t.calDone, t.fault)) = some (2041, 0b11#2, false) := by decide

/-- L2.2: sums -1, 0, 4095 and 4096; 0xF801 is -2047 in 16 bits. -/
theorem test_sampx_bounds :
    (after (exec (.sampx 2046#12) { State.reset with offX := 0xF801#16, sx := 77#12 })).map (·.sx) = some 77#12 ∧
    (after (exec (.sampx 2047#12) { State.reset with offX := 0xF801#16, sx := 77#12 })).map (·.sx) = some 0#12 ∧
    (after (exec (.sampx 2047#12) { State.reset with offX := 2048#16, sx := 77#12 })).map (·.sx) = some 4095#12 ∧
    (after (exec (.sampx 2048#12) { State.reset with offX := 2048#16, sx := 77#12 })).map (·.sx) = some 77#12 := by
  decide

/-- L1.2 -/
theorem test_sampx_hold :
    (after (exec (.sampx 4090#12) { State.reset with offX := 10#16, sx := 1500#12 })).map (·.sx) = some 1500#12 := by
  decide

/-- L2.2: sums -2047, 1, 4095, 4096 and 6143. -/
theorem test_sampy_bounds :
    (after (exec (.sampy 0#12) { State.reset with offY := 0xF801#16, sy := 77#12 })).map (·.sy) = some 0#12 ∧
    (after (exec (.sampy 2048#12) { State.reset with offY := 0xF801#16, sy := 77#12 })).map (·.sy) = some 1#12 ∧
    (after (exec (.sampy 2047#12) { State.reset with offY := 2048#16, sy := 77#12 })).map (·.sy) = some 4095#12 ∧
    (after (exec (.sampy 2048#12) { State.reset with offY := 2048#16, sy := 77#12 })).map (·.sy) = some 4095#12 ∧
    (after (exec (.sampy 4095#12) { State.reset with offY := 2048#16, sy := 77#12 })).map (·.sy) = some 4095#12 := by
  decide

/-- L2.3, the gate corners with EDGE A. -/
theorem test_edge_gate_corners :
    after (exec (.edge 0b00#2) { startAt 1200 with lastEv := 1000#32 }) =
      some { startAt 1200 with lastEv := 1000#32 } ∧
    (after (exec (.edge 0b00#2) { startAt 1201 with lastEv := 1000#32 })).map (fun t => (t.lastEv, t.ledMode)) =
      some (1201#32, 1#2) ∧
    (after (exec (.edge 0b00#2) { startAt 999 with lastEv := 1000#32 })).map (fun t => (t.lastEv, t.ledMode)) =
      some (999#32, 1#2) ∧
    after (exec (.edge 0b00#2) (startAt 200)) = some (startAt 200) ∧
    (after (exec (.edge 0b00#2) { startAt 200 with lastEv := 0xFFFFFFFF#32 })).map (·.lastEv) = some 200#32 ∧
    (after (exec (.edge 0b00#2) { startAt 199 with lastEv := 0xFFFFFFFF#32 })).map (·.lastEv) =
      some 0xFFFFFFFF#32 ∧
    (after (exec (.edge 0b00#2) { startAt 500 with ledMode := 3#2 })).map (·.ledMode) = some 0#2 := by decide

/-- L2.3, dispatch of B and C. -/
theorem test_edge_dispatch :
    (after (exec (.edge 0b01#2) (startAt 500))).map (fun t => (t.lastEv, t.halted, t.evlog)) =
      some (500#32, true, [.boot]) ∧
    (after (exec (.edge 0b10#2) (startAt 500))).map (fun t => (t.ledPin, t.borderD, t.evlog)) =
      some (true, true, [.pin true, .border true]) ∧
    (after (exec (.edge 0b10#2) { startAt 500 with ledPin := true, borderD := true })).map (·.evlog) =
      some [.pin false, .border false] := by decide

/-- L2.3: coincident falls; B halts before C. -/
theorem test_levels_coincident :
    (after (exec (.levels 0b000#3) (startAt 500))).map (fun t => (t.ledMode, t.lastEv, t.prevLvl, t.evlog)) =
      some (1#2, 500#32, 0b000#3, []) ∧
    (after (exec (.levels 0b001#3) (startAt 500))).map (fun t => (t.halted, t.ledPin, t.prevLvl, t.evlog)) =
      some (true, false, 0b001#3, [.boot]) ∧
    (after (exec (.levels 0b011#3) (startAt 500))).map (·.evlog) = some [.pin true, .border true] := by decide

/-- L2.3: within the window; rises; a level held low. -/
theorem test_levels_no_edge :
    after (exec (.levels 0b000#3) (startAt 100)) = some { startAt 100 with prevLvl := 0b000#3 } ∧
    after (exec (.levels 0b111#3) { startAt 500 with prevLvl := 0b000#3 }) = some (startAt 500) ∧
    after (exec (.levels 0b110#3) { startAt 500 with prevLvl := 0b110#3 }) =
      some { startAt 500 with prevLvl := 0b110#3 } := by decide

/-- L2.4, the duty function. -/
theorem test_duty_table :
    [0, 1, 2, 3, 4, 585, 1000, 1500, 2047, 2048, 3000, 4094, 4095].map (duty { }) =
      [0, 0, 1, 1, 2, 292, 500, 750, 1023, 1024, 1500, 2047, 2048] := by decide

/-- L2.4, MAP in every mode. -/
theorem test_map_modes :
    (after (exec .map { State.reset with sx := 4095#12, sy := 4095#12 })).map (fun t => (t.pwmR, t.pwmB, t.evlog)) =
      some (0#16, 0#16, [.setDuty .r 0, .setDuty .b 0]) ∧
    (after (exec .map { State.reset with sx := 4095#12, sy := 4095#12, ledMode := 1#2 })).map (·.evlog) =
      some [.setDuty .r 2048, .setDuty .b 0] ∧
    (after (exec .map { State.reset with sx := 4095#12, sy := 1#12, ledMode := 2#2 })).map (·.evlog) =
      some [.setDuty .r 0, .setDuty .b 0] ∧
    (after (exec .map { State.reset with sx := 2048#12, sy := 1000#12, ledMode := 3#2 })).map
      (fun t => (t.pwmR, t.pwmB)) = some (1024#16, 500#16) := by decide

/-- L2.5, the coordinate functions. -/
theorem test_px_py_table :
    [0, 1, 585, 1000, 1170, 1755, 2047, 2048, 2340, 2925, 3000, 3510, 4094, 4095].map (px { }) =
      [0, 0, 17, 29, 34, 51, 59, 60, 68, 85, 87, 102, 119, 120] ∧
    [0, 1, 585, 1000, 1170, 1755, 2047, 2048, 2340, 2925, 3000, 3510, 4094, 4095].map (py { }) =
      [56, 55, 48, 42, 40, 32, 28, 27, 24, 16, 14, 8, 0, 0] := by decide

/-- L2.5 -/
theorem test_pix_render :
    (after (exec .pix State.reset)).map (fun t => (t.pixX, t.pixY, t.evlog)) =
      some (0#8, 56#8, [.clear, .border false, .rect 0 56 8 8 true, .flush]) ∧
    (after (exec .pix { State.reset with sx := 4095#12, sy := 4095#12, borderD := true })).map (·.evlog) =
      some [.clear, .border true, .rect 120 0 8 8 true, .flush] := by decide

/-! ### Steps -/

/-- L2.6: the fault codes, the first cause kept, the halt check first. -/
theorem test_step_faults :
    (stepOn State.reset 0x00000000#32).map (fun t => (t.fault, t.fcause)) = some (true, 1#4) ∧
    (stepOn State.reset 0x5FFFFFFF#32).map (fun t => (t.fault, t.fcause)) = some (true, 2#4) ∧
    (stepOn State.reset 0x50000003#32).map (fun t => (t.fault, t.fcause, t.lastEv)) = some (true, 3#4, 0#32) ∧
    (stepOn { State.reset with fault := true, fcause := 4#4 } 0x9FFFFFFF#32).map (·.fcause) = some 4#4 ∧
    (stepOn { State.reset with halted := true } 0x00000000#32).map (·.fault) = some false ∧
    (stepOn { State.reset with halted := true } 0x70000000#32).map (·.evlog) = some [] := by decide

/-- P6: an edge agent's command between the tick agent's. -/
theorem test_step_interleaves :
    (after (step (hosted [0x70000000#32] [0x50000002#32] [.perform .edge 1001#32, .perform .tick 1300#32]))).map
      (fun t => (t.evlog, t.host.tickCmds, t.host.edgeCmds, t.lastEv)) =
      some ([.pin true, .border true], [0x70000000#32], [], 1001#32) := by decide

theorem test_step_withFetchWord :
    (after (step (State.reset.withFetchWord 32 0x200007F6))).map (·.offY.toInt) = some 10 := by decide

theorem test_step_idle_and_rst :
    after (step State.reset) = some State.reset ∧
    (after (step { hosted [] [] [.rst] with halted := true, fault := true, sx := 9#12 })) =
      some (hosted [] [] []) := by decide

/-- R32: a PIN, a BOOT and a RECT as collaborator calls. -/
theorem test_event_calls :
    (Event.pin true).calls = [.writePin true] ∧ Event.boot.calls = [.enterBootloader] ∧
    (Event.rect 60 0 8 8 true).calls = [.drawRect ⟨60, 0, 8, 8⟩ true] := ⟨rfl, rfl, rfl⟩

/-! ### Witnesses of the statements' hypotheses -/

/-- O1, O2 -/
theorem witness_DecodeOfEncodeIsTheCommand : WellFormed (.edge 0b10#2) ∧ WellFormed (.calx 4095#12) := by decide

theorem witness_AcceptedWordIsEncodeOfItsCommand : decode 0x50000002#32 = .ok (.edge 0b10#2) := rfl

/-- O3, clause by clause: opcodes 0 and 9, reserved bits at both ends of the opcode range, the pin, and each command. -/
theorem witness_DecodeFollowsItsFixedOrder :
    ((0x0FFFFFFF#32).extractLsb' 28 4).toNat = 0 ∧ ((0x90000000#32).extractLsb' 28 4).toNat = 9 ∧
    (((0x10001000#32).extractLsb' 28 4).toNat = 1 ∧ (0x10001000#32).extractLsb' 12 16 ≠ 0#16) ∧
    (((0x80000001#32).extractLsb' 28 4).toNat = 8 ∧ (0x80000001#32).extractLsb' 0 28 ≠ 0#28) ∧
    (((0x50000003#32).extractLsb' 28 4).toNat = 5 ∧ ¬(0x50000003#32).extractLsb' 2 26 ≠ 0#26 ∧
      (0x50000003#32).extractLsb' 0 2 = 0b11#2) ∧
    (((0x10000FFF#32).extractLsb' 28 4).toNat = 1 ∧ ¬(0x10000FFF#32).extractLsb' 12 16 ≠ 0#16) ∧
    (((0x20000FFF#32).extractLsb' 28 4).toNat = 2 ∧ ¬(0x20000FFF#32).extractLsb' 12 16 ≠ 0#16) ∧
    (((0x30000FFF#32).extractLsb' 28 4).toNat = 3 ∧ ¬(0x30000FFF#32).extractLsb' 12 16 ≠ 0#16) ∧
    (((0x40000FFF#32).extractLsb' 28 4).toNat = 4 ∧ ¬(0x40000FFF#32).extractLsb' 12 16 ≠ 0#16) ∧
    (((0x50000002#32).extractLsb' 28 4).toNat = 5 ∧ ¬(0x50000002#32).extractLsb' 2 26 ≠ 0#26 ∧
      (0x50000002#32).extractLsb' 0 2 ≠ 0b11#2) ∧
    (((0x60000007#32).extractLsb' 28 4).toNat = 6 ∧ ¬(0x60000007#32).extractLsb' 3 25 ≠ 0#25) ∧
    (((0x70000000#32).extractLsb' 28 4).toNat = 7 ∧ ¬(0x70000000#32).extractLsb' 0 28 ≠ 0#28) ∧
    (((0x80000000#32).extractLsb' 28 4).toNat = 8 ∧ ¬(0x80000000#32).extractLsb' 0 28 ≠ 0#28) := by decide

/-- O3, last clause: a halted state with a turn. -/
theorem witness_DecodeFollowsItsFixedOrder_halted :
    let s : State := { hosted [0#32] [] [.perform .tick 5#32] with halted := true }
    s.halted = true ∧ s.host.turns = .perform .tick 5#32 :: [] := ⟨rfl, rfl⟩

/-- O4's last clause. -/
theorem witness_WordSelectsCommandByMaskAndMatch :
    decode 0xFFFFFFFF#32 = .error .illegalOpcode ∧ decode 0x0FFFFFFF#32 = .error .illegalOpcode := ⟨rfl, rfl⟩

/-- O6, both agents. -/
theorem witness_StepPerformsTheOfferedCommand :
    decode 0x70000000#32 = .ok .map ∧ (hosted [0x70000000#32] [] [.perform .tick 9#32]).halted = false ∧
    (hosted [0x70000000#32] [] [.perform .tick 9#32]).host.turns = .perform .tick 9#32 :: [] ∧
    (hosted [0x70000000#32] [] [.perform .tick 9#32]).host.tickCmds = 0x70000000#32 :: [] ∧
    (hosted [] [0x70000000#32] [.perform .edge 9#32]).host.turns = .perform .edge 9#32 :: [] ∧
    (hosted [] [0x70000000#32] [.perform .edge 9#32]).host.edgeCmds = 0x70000000#32 :: [] :=
  ⟨rfl, rfl, rfl, rfl, rfl, rfl⟩

/-- O7, each cause, both agents. -/
theorem witness_IllegalWordOnlyRecordsItsFault :
    decode 0x00000000#32 = .error .illegalOpcode ∧ decode 0x70000001#32 = .error .reservedBits ∧
    decode 0x50000003#32 = .error .reservedPin ∧
    (hosted [0x50000003#32] [] [.perform .tick 9#32]).halted = false ∧
    (hosted [0x50000003#32] [] [.perform .tick 9#32]).host.turns = .perform .tick 9#32 :: [] ∧
    (hosted [0x50000003#32] [] [.perform .tick 9#32]).host.tickCmds = 0x50000003#32 :: [] ∧
    (hosted [] [0x50000003#32] [.perform .edge 9#32]).host.turns = .perform .edge 9#32 :: [] ∧
    (hosted [] [0x50000003#32] [.perform .edge 9#32]).host.edgeCmds = 0x50000003#32 :: [] :=
  ⟨rfl, rfl, rfl, rfl, rfl, rfl, rfl, rfl⟩

/-- O9: a run of two steps over both queues. -/
theorem witness_EachAgentsCommandsAreTakenInIssueOrder :
    ∃ t, run 2 (hosted [0x70000000#32, 0x80000000#32] [0x50000000#32] [.perform .tick 1#32, .perform .edge 2#32]) =
        .next t ∧ t.host.tickCmds = [0x80000000#32] ∧ t.host.edgeCmds = [] := ⟨_, rfl, rfl, rfl⟩

/-- O11, O43 -/
theorem witness_OnlyEdgeAndLevelsUseNow :
    (∀ pin, Instr.sampx 5#12 ≠ .edge pin) ∧ ∀ lvl, Instr.sampx 5#12 ≠ .levels lvl := by
  constructor <;> intro v h <;> cases h

theorem witness_TickCommandsWriteOnlyTheirElements :
    (∀ pin, Instr.map ≠ .edge pin) ∧ (∀ lvl, Instr.map ≠ .levels lvl) ∧
    ∃ t, exec .map State.reset = .next t ∧ t.evlog ≠ [] := by
  refine ⟨?_, ?_, _, rfl, by decide⟩ <;> intro v h <;> cases h

/-- O12, O13 -/
theorem witness_StepAppendsOneWholeEventGroup :
    ∃ t, step (hosted [0x80000000#32] [] [.perform .tick 1#32]) = .next t ∧
      (hosted [0x80000000#32] [] [.perform .tick 1#32]).host.turns.head? ≠ some .rst ∧ t.evlog.length = 4 :=
  ⟨_, rfl, by decide, rfl⟩

theorem witness_StepKeepsTheParameters :
    ∃ t, step { hosted [] [] [.rst] with cfg := { pwmPeriod := 999 } } = .next t ∧ t.cfg.pwmPeriod = 999 :=
  ⟨_, rfl, rfl⟩

/-- O14, O15 -/
theorem witness_RstSetsEveryElement :
    ({ hosted [] [] [.rst] with sx := 9#12, halted := true } : State).host.turns = .rst :: [] := rfl

theorem witness_RstLeavesTheInputsAlone :
    (hosted [7#32] [8#32] [.rst, .perform .edge 1#32]).host.turns = .rst :: [.perform .edge 1#32] := rfl

/-- O17 -/
theorem witness_HaltedUntilRst :
    let s : State := { hosted [0x70000000#32] [] [.perform .tick 1#32, .perform .edge 2#32, .rst] with halted := true }
    s.halted = true ∧ NoReset 2 s ∧ (hosted [] [] [.rst]).host.turns = .rst :: [] := by decide

/-- O18: with and without RST, a first fault and a second. -/
theorem witness_FaultIsStickyAndKeepsTheFirstCause :
    (∃ t, step (hosted [0#32] [] [.perform .tick 1#32]) = .next t ∧ t.fault = true) ∧
    (∃ t, step { hosted [0#32] [] [.perform .tick 1#32] with fault := true, fcause := 4#4 } = .next t ∧
      t.fcause = 4#4) ∧
    (hosted [0#32] [] [.perform .tick 1#32]).host.turns.head? ≠ some .rst ∧
    (∃ t, step (hosted [0x70000000#32] [] [.perform .tick 1#32]) = .next t ∧ t.fault = false) ∧
    ∃ t, step { hosted [] [] [.rst] with fault := true } = .next t ∧
      ({ hosted [] [] [.rst] with fault := true } : State).host.turns.head? = some .rst :=
  ⟨⟨_, rfl, rfl⟩, ⟨_, rfl, rfl⟩, by decide, ⟨_, rfl, rfl⟩, ⟨_, rfl, rfl⟩⟩

/-- Legal parameters in the state after reset and in every state made from it. -/
theorem startAt_legal (now : Nat) : (startAt now).cfg.Legal := default_params_legal

/-- O20, O21: an axis not calibrated and one calibrated; the reserved bit next to the field. -/
theorem witness_CalxCapturesTheXOffsetOnce :
    (startAt 0).cfg.Legal ∧ (startAt 0).calDone.getLsbD 0 = false ∧
    ({ startAt 0 with calDone := 0b01#2 } : State).calDone.getLsbD 0 = true ∧
    (0x10001000#32).extractLsb' 28 4 = 1#4 ∧ 0x10001000#32 &&& 0x0FFFF000#32 ≠ 0#32 :=
  ⟨startAt_legal 0, by decide⟩

theorem witness_CalyCapturesTheYOffsetOnce :
    (startAt 0).cfg.Legal ∧ (startAt 0).calDone.getLsbD 1 = false ∧
    ({ startAt 0 with calDone := 0b10#2 } : State).calDone.getLsbD 1 = true ∧
    (0x20001000#32).extractLsb' 28 4 = 2#4 ∧ 0x20001000#32 &&& 0x0FFFF000#32 ≠ 0#32 :=
  ⟨startAt_legal 0, by decide⟩

/-- O22: sums 0 and 4095, then -1 and 4096. -/
theorem witness_SampxAcceptsInRangeAndHolds :
    (startAt 0).cfg.Legal ∧ ((2047#12).toNat : Int) + (0xF801#16).toInt = 0 ∧
    ((2047#12).toNat : Int) + (2048#16).toInt = 4095 ∧ ((2046#12).toNat : Int) + (0xF801#16).toInt < 0 ∧
    4095 < ((2048#12).toNat : Int) + (2048#16).toInt ∧
    (0x3F000000#32).extractLsb' 28 4 = 3#4 ∧ 0x3F000000#32 &&& 0x0FFFF000#32 ≠ 0#32 :=
  ⟨startAt_legal 0, by decide⟩

theorem witness_SampyClampsAndNeverHolds :
    (startAt 0).cfg.Legal ∧ (0x48000000#32).extractLsb' 28 4 = 4#4 ∧ 0x48000000#32 &&& 0x0FFFF000#32 ≠ 0#32 :=
  ⟨startAt_legal 0, by decide⟩

theorem witness_SampleOfTheCalibrationReadingIsTheMidpoint :
    (startAt 0).cfg.Legal ∧ (startAt 0).cfg.calMid = 2048 ∧ (startAt 0).calDone.getLsbD 0 = false ∧
    (startAt 0).calDone.getLsbD 1 = false := ⟨startAt_legal 0, by decide⟩

/-- O25: a run with a later CALX, both axes calibrated. -/
theorem witness_CalibrationStaysUntilRst :
    let s : State := { hosted [0x10000007#32] [] [.perform .tick 1#32] with calDone := 0b11#2, offX := 10#16 }
    NoReset 1 s ∧ (∃ t, run 1 s = .next t ∧ t.fault = true) ∧ s.calDone.getLsbD 0 = true ∧
      s.calDone.getLsbD 1 = true := ⟨by decide, ⟨_, rfl, rfl⟩, rfl, rfl⟩

/-- O26 to O29: elapsed 200, then 201, and a legal pin. -/
theorem witness_GateIgnoresWithinTheWindow :
    (0b10#2 ≠ 0b11#2) ∧ elapsed (startAt 200) ≤ (startAt 200).cfg.debounceMs ∧
    (startAt 201).cfg.debounceMs < elapsed (startAt 201) := by decide

theorem witness_AcceptedEdgeOnAAdvancesTheMode : (startAt 201).cfg.debounceMs < elapsed (startAt 201) := by decide

theorem witness_AcceptedEdgeOnBBootsAndHalts :
    let s : State := { hosted [0x70000000#32] [] [.perform .tick 900#32] with lastEv := 0xFFFFFF00#32 }
    s.cfg.debounceMs < elapsed s ∧
      NoReset 1 { s with lastEv := s.host.nowMs, halted := true, evlog := s.evlog ++ [.boot] } := by decide

theorem witness_AcceptedEdgeOnCTogglesPinAndBorder :
    ({ startAt 200 with lastEv := 0xFFFFFFFF#32 } : State).cfg.debounceMs <
      elapsed { startAt 200 with lastEv := 0xFFFFFFFF#32 } := by decide

/-- O31, clause by clause. -/
theorem witness_LevelsDetectsAndDebouncesFalls :
    (fell (startAt 201) 0b111#3 0 = false ∧ fell (startAt 201) 0b111#3 1 = false ∧
      fell (startAt 201) 0b111#3 2 = false) ∧
    (elapsed (startAt 200) ≤ (startAt 200).cfg.debounceMs) ∧
    ((startAt 201).cfg.debounceMs < elapsed (startAt 201) ∧ fell (startAt 201) 0b000#3 0 = true) ∧
    (fell (startAt 201) 0b001#3 0 = false ∧ fell (startAt 201) 0b001#3 1 = true) ∧
    (fell (startAt 201) 0b011#3 0 = false ∧ fell (startAt 201) 0b011#3 1 = false ∧
      fell (startAt 201) 0b011#3 2 = true) ∧
    (0x60000008#32).extractLsb' 28 4 = 6#4 ∧ 0x60000008#32 &&& 0x0FFFFFF8#32 ≠ 0#32 := by decide

/-- O32, second part: an accepted edge, then another pin. -/
theorem witness_CoincidentFallsAreOneEdge :
    0b10#2 ≠ 0b11#2 ∧ ∃ t, exec (.edge 0b00#2) (startAt 500) = .next t ∧ t.lastEv ≠ (startAt 500).lastEv :=
  ⟨by decide, _, rfl, by decide⟩

/-- O33: true distances 200 and 201, both across the wrap of the counter. -/
theorem witness_EdgeIsAcceptedByItsTrueDistance :
    0b00#2 ≠ 0b11#2 ∧ 4294967295 ≤ 4294967495 ∧
    ({ startAt 199 with lastEv := 0xFFFFFFFF#32 } : State).lastEv = BitVec.ofNat 32 4294967295 ∧
    (startAt 199).host.nowMs = BitVec.ofNat 32 4294967495 ∧
    (4294967495 - 4294967295) % 2 ^ 32 ≤ (startAt 199).cfg.debounceMs ∧
    (startAt 200).host.nowMs = BitVec.ofNat 32 4294967496 ∧
    (startAt 200).cfg.debounceMs < (4294967496 - 4294967295) % 2 ^ 32 := by decide

/-- O34: four accepted A edges, 201 ms apart. -/
theorem witness_ModeIsAFourCycle :
    ∃ t1 t2 t3 t4,
      (startAt 201).cfg.debounceMs < elapsed (startAt 201) ∧ exec (.edge 0b00#2) (startAt 201) = .next t1 ∧
      (atTime 402#32 t1).ledMode = t1.ledMode ∧ (atTime 402#32 t1).cfg.debounceMs < elapsed (atTime 402#32 t1) ∧
      exec (.edge 0b00#2) (atTime 402#32 t1) = .next t2 ∧
      (atTime 603#32 t2).ledMode = t2.ledMode ∧ (atTime 603#32 t2).cfg.debounceMs < elapsed (atTime 603#32 t2) ∧
      exec (.edge 0b00#2) (atTime 603#32 t2) = .next t3 ∧
      (atTime 804#32 t3).ledMode = t3.ledMode ∧ (atTime 804#32 t3).cfg.debounceMs < elapsed (atTime 804#32 t3) ∧
      exec (.edge 0b00#2) (atTime 804#32 t3) = .next t4 :=
  ⟨_, _, _, _, by decide, rfl, rfl, by decide, rfl, rfl, by decide, rfl, rfl, by decide, rfl⟩

/-- O35: RST, then an edge at 200 and at 201. -/
theorem witness_FirstEdgeAfterRstNeedsAFullWindow :
    0b01#2 ≠ 0b11#2 ∧
    (hosted [] [0x50000001#32] [.rst, .perform .edge 200#32]).host.turns = .rst :: .perform .edge 200#32 :: [] ∧
    (hosted [] [0x50000001#32] [.rst, .perform .edge 200#32]).host.edgeCmds =
      (0x50000000#32 ||| (0b01#2).setWidth 32) :: [] ∧
    (200#32).toNat ≤ State.reset.cfg.debounceMs ∧ State.reset.cfg.debounceMs < (201#32).toNat := by decide

/-- O36 -/
theorem witness_EdgeCommandsWriteOnlyTheirElements :
    (∃ t, exec (.edge 0b10#2) (startAt 500) = .next t ∧ t.evlog.length = 2) ∧
    ∃ t, exec (.levels 0b101#3) (startAt 500) = .next t ∧ t.evlog.length = 1 := ⟨⟨_, rfl, rfl⟩, ⟨_, rfl, rfl⟩⟩

/-- O37: a clock that moves by exactly the window from 201 on, and two EDGE A offered, of which one is accepted. -/
theorem witness_AtMostOneEdgeAcceptedPerWindow :
    let s := hosted [] [0x50000000#32, 0x50000000#32] [.perform .edge 201#32, .perform .edge 401#32]
    s.cfg.Legal ∧ TruthfulClock 201 (201 + s.cfg.debounceMs) s.host.turns ∧ acceptedEdges 2 s = 1 :=
  ⟨default_params_legal,
    ⟨201, by decide, by decide, by decide, 401, by decide, by decide, by decide, trivial⟩, by decide⟩

/-- O38, O40 -/
theorem witness_MapAppliesTheDutiesOfTheMode :
    (startAt 0).cfg.Legal ∧ (0x70000001#32).extractLsb' 28 4 = 7#4 ∧ 0x70000001#32 &&& 0x0FFFFFFF#32 ≠ 0#32 :=
  ⟨startAt_legal 0, by decide⟩

theorem witness_PixPlacesTheMarkerAndRenders :
    (startAt 0).cfg.Legal ∧ (0x88000000#32).extractLsb' 28 4 = 8#4 ∧ 0x88000000#32 &&& 0x0FFFFFFF#32 ≠ 0#32 :=
  ⟨startAt_legal 0, by decide⟩

/-- O39: the ends of the range, and parameters other than the defaults. -/
theorem witness_DutyObeysItsLaws :
    (4094 ≤ 4095 ∧ 4095 ≤ 4095) ∧ Params.Legal { pwmPeriod := 65535 } ∧ 4094 < ({ } : Params).adcMax :=
  ⟨by decide, by constructor <;> decide, by decide⟩

theorem witness_YIsInvertedAndXIsNot : Params.Legal { dispW := 263 } ∧ 4094 ≤ 4095 ∧ 4095 ≤ 4095 :=
  ⟨by constructor <;> decide, by decide, by decide⟩

/-- O42: the far corner of the display. -/
theorem witness_MarkerLiesInsideTheDisplay :
    let s : State := { State.reset with sx := 4095#12 }
    s.cfg.Legal ∧ (∃ t, exec .pix s = .next t ∧ t.pixX.toNat + 7 = 127 ∧ t.pixY.toNat + 7 = 63) ∧ 7 < s.cfg.marker :=
  ⟨default_params_legal, ⟨_, rfl, rfl, rfl⟩, by decide⟩

/-- O44: each row's first performance; for EDGE a repeat at the end of the window. -/
theorem witness_RepeatedCommandsAsTabled :
    (∃ t, exec (.calx 7#12) State.reset = .next t) ∧ (∃ t, exec (.caly 7#12) State.reset = .next t) ∧
    (∃ t, exec (.sampx 7#12) State.reset = .next t) ∧ (∃ t, exec (.sampy 7#12) State.reset = .next t) ∧
    (∃ t, exec .map State.reset = .next t) ∧ (∃ t, exec .pix State.reset = .next t) ∧
    (∃ t, exec (.edge 0b00#2) (startAt 500) = .next t ∧ t.lastEv = (startAt 500).host.nowMs ∧
      elapsed (atTime 700#32 t) ≤ (startAt 500).cfg.debounceMs) ∧
    ∃ t, exec (.levels 0b000#3) (startAt 500) = .next t :=
  ⟨⟨_, rfl⟩, ⟨_, rfl⟩, ⟨_, rfl⟩, ⟨_, rfl⟩, ⟨_, rfl⟩, ⟨_, rfl⟩, ⟨_, rfl, rfl, by decide⟩, ⟨_, rfl⟩⟩

/-- O45: `TICK 2048, 1000`, offered with nothing between its commands. -/
theorem witness_UninterruptedTickDrivesTheOutputs :
    let s := hosted (Pseudo.tick 2048#12 1000#12).words []
      [.perform .tick 700#32, .perform .tick 700#32, .perform .tick 700#32, .perform .tick 700#32]
    s.cfg.Legal ∧ s.halted = false ∧ s.host.tickCmds = (Pseudo.tick 2048#12 1000#12).words ++ [] ∧
      s.host.turns =
        [.perform .tick 700#32, .perform .tick 700#32, .perform .tick 700#32, .perform .tick 700#32] ++ [] :=
  ⟨default_params_legal, rfl, rfl, rfl⟩

/-- O46 to O48: the state after reset with a command offered meets each invariant, and steps. -/
theorem witness_StepKeepsRegistersBounded :
    RegistersBounded (hosted [0x10000FFF#32] [] [.perform .tick 1#32]) ∧
    ∃ t, step (hosted [0x10000FFF#32] [] [.perform .tick 1#32]) = .next t ∧ t.offX.toInt = -2047 :=
  ⟨⟨default_params_legal, by decide, by decide, by decide, by decide, by decide, by decide, by decide, by decide,
    by decide, by decide⟩, _, rfl, rfl⟩

theorem witness_StepKeepsFaultRecordSound :
    FaultRecordSound (hosted [0#32] [] [.perform .tick 1#32]) ∧
    ∃ t, step (hosted [0#32] [] [.perform .tick 1#32]) = .next t ∧ t.fcause = 1#4 :=
  ⟨⟨by decide, by decide⟩, _, rfl, rfl⟩

theorem witness_StepKeepsLogTellingOutputs :
    LogTellsOutputs (hosted [0x80000000#32] [] [.perform .tick 1#32]) ∧
    ∃ t, step (hosted [0x80000000#32] [] [.perform .tick 1#32]) = .next t ∧ t.evlog.length = 4 :=
  ⟨⟨default_params_legal, (fun _ h => by cases h), by decide⟩, _, rfl, rfl⟩

end Sys2Proof.Tests
end

section
/-! SUPPORT. The repeats of 20_memory.md R54: what each command does when it is performed again with no command between, first as a
law of the operation behind the command, then as the command's row of the table. -/

namespace Sys2Proof.Machine

/-! ### CALX and CALY: the second capture faults -/

theorem isCalibrated_setCalibrated (d : BitVec 2) (ax : Axis) : isCalibrated (setCalibrated d ax) ax = true := by
  cases ax with
  | x => rw [isCalibrated_x, (setCalibrated_x d).1]
  | y => rw [isCalibrated_y, (setCalibrated_y d).1]

/-- After a capture the axis is calibrated, whether the capture was taken or faulted (10_state.md R20). -/
theorem isCalibrated_captureOffset (ax : Axis) (raw : Raw) (s : State) :
    isCalibrated (captureOffset ax raw s).calDone ax = true := by
  obtain ⟨hc, h⟩ | ⟨-, h⟩ := captureOffset_cases ax raw s
  · rw [h, raiseFault_calDone, hc]
  · rw [h, setCalDone_calDone, isCalibrated_setCalibrated]

theorem captureOffset_of_isCalibrated {ax : Axis} (raw : Raw) {s : State} (hc : isCalibrated s.calDone ax = true) :
    captureOffset ax raw s = raiseFault .recalibration s := if_pos hc

/-- A second capture of the same axis is a RECALIBRATION fault (40_calibrate_sample.md R69, R70). -/
theorem captureOffset_captureOffset (ax : Axis) (raw : Raw) (s : State) :
    captureOffset ax raw (captureOffset ax raw s) = raiseFault .recalibration (captureOffset ax raw s) :=
  captureOffset_of_isCalibrated raw (isCalibrated_captureOffset ax raw s)

/-! ### SAMPX and SAMPY: idempotent -/

theorem holdSample_holdSample (raw : Raw) (s : State) : holdSample raw (holdSample raw s) = holdSample raw s := by
  obtain ⟨hr, h⟩ | ⟨-, h⟩ := holdSample_cases raw s
  · rw [h]
    exact if_pos hr
  · rw [h, h]

theorem clampSample_clampSample (raw : Raw) (s : State) : clampSample raw (clampSample raw s) = clampSample raw s := rfl

/-! ### MAP and PIX: idempotent but for the log -/

/-- Applying the same duties again writes what the registers hold and appends the same two events (42_pwm_map.md R97). -/
theorem applyDuties_applyDuties (rb : Nat × Nat) (s : State) :
    applyDuties rb (applyDuties rb s) =
      { applyDuties rb s with
        evlog := (applyDuties rb s).evlog ++ [.setDuty .r rb.1, .setDuty .b rb.2] } := by
  simp [applyDuties, emit]

/-- MAP reads nothing it writes (42_pwm_map.md R97). -/
theorem mappedDuties_applyDuties (rb : Nat × Nat) (s : State) : mappedDuties (applyDuties rb s) = mappedDuties s := rfl

/-- Rendering at the same place again appends the same four events (43_pixel.md R105). -/
theorem renderAt_renderAt (x y : Nat) (s : State) :
    renderAt x y (renderAt x y s) =
      { renderAt x y s with
        evlog :=
          (renderAt x y s).evlog ++ [.clear, .border s.borderD, .rect x y s.cfg.marker s.cfg.marker true, .flush] } := by
  simp [renderAt, emit]

/-! ### EDGE: ignored within the window -/

theorem elapsed_eq_elapsedSince (s : State) : elapsed s = elapsedSince s.lastEv s.host.nowMs :=
  (elapsedSince_eq s.lastEv s.host.nowMs).symm

theorem presentEdge_of_elapsed_le (p : Input) {s : State} (h : elapsed s ≤ s.cfg.debounceMs) : presentEdge p s = s := by
  rw [presentEdge_eq, ← elapsed_eq_elapsedSince, if_pos h]

theorem exec_edge_of_inputOfPin {pin : BitVec 2} {p : Input} (s : State) (hp : inputOfPin pin = some p) :
    exec (.edge pin) s = .next (presentEdge p s) := by
  simp only [exec, execEdge, hp]

@[simp] theorem presentEdge_cfg (p : Input) (s : State) : (presentEdge p s).cfg = s.cfg := by
  rw [presentEdge_eq]
  split <;> simp

@[simp] theorem atTime_cfg (now : Time) (s : State) : (atTime now s).cfg = s.cfg := rfl

/-! ### LEVELS: the same levels have no falling edge -/

@[simp] theorem dispatch_prevLvl (p : Input) (s : State) : (dispatch p s).prevLvl = s.prevLvl := by
  cases p <;> simp [dispatch, requestBoot]

@[simp] theorem presentEdge_prevLvl (p : Input) (s : State) : (presentEdge p s).prevLvl = s.prevLvl := by
  rw [presentEdge_eq]
  split <;> simp

@[simp] theorem atTime_prevLvl (now : Time) (s : State) : (atTime now s).prevLvl = s.prevLvl := rfl

theorem fallingEdges_self (lvl : Levels) : fallingEdges lvl lvl = 0#3 := by simp [fallingEdges]

@[simp] theorem hasFall_zero (p : Input) : hasFall 0#3 p = false := by simp [hasFall]

/-- LEVELS leaves in PREV_LVL the levels it was given, whatever the gate answers (41_debounce.md R89). -/
theorem prevLvl_of_exec_levels {lvl : Levels} {s t : State} (h : exec (.levels lvl) s = .next t) : t.prevLvl = lvl := by
  rw [exec_levels] at h
  obtain rfl := Host.Outcome.next.inj h
  split <;> simp

/-- Levels already in PREV_LVL change nothing at any time (41_debounce.md R89). -/
theorem exec_levels_of_prevLvl_eq {lvl : Levels} {s : State} (h : s.prevLvl = lvl) : exec (.levels lvl) s = .next s := by
  subst h
  have hfall : gateOrder.find? (hasFall (fallingEdges s.prevLvl s.prevLvl)) = none := by
    simp [fallingEdges_self]
  rw [exec_levels, hfall]
  rfl

/-! ### The rows of the table -/

section Rows

variable {s t : State}

theorem exec_calx_again (raw : Raw) (h : exec (.calx raw) s = .next t) :
    exec (.calx raw) t = .next (raiseFault .recalibration t) := by
  obtain rfl := Host.Outcome.next.inj h
  rw [exec_calx, captureOffset_captureOffset]

theorem exec_caly_again (raw : Raw) (h : exec (.caly raw) s = .next t) :
    exec (.caly raw) t = .next (raiseFault .recalibration t) := by
  obtain rfl := Host.Outcome.next.inj h
  rw [exec_caly, captureOffset_captureOffset]

theorem exec_sampx_again (raw : Raw) (h : exec (.sampx raw) s = .next t) : exec (.sampx raw) t = .next t := by
  obtain rfl := Host.Outcome.next.inj h
  rw [exec_sampx, holdSample_holdSample]

theorem exec_sampy_again (raw : Raw) (h : exec (.sampy raw) s = .next t) : exec (.sampy raw) t = .next t := by
  obtain rfl := Host.Outcome.next.inj h
  rw [exec_sampy, clampSample_clampSample]

theorem exec_map_again (h : exec .map s = .next t) :
    ∃ group, t.evlog = s.evlog ++ group ∧ exec .map t = .next { t with evlog := t.evlog ++ group } := by
  obtain rfl := Host.Outcome.next.inj h
  refine ⟨[.setDuty .r (mappedDuties s).1, .setDuty .b (mappedDuties s).2], by simp, ?_⟩
  rw [exec_map, mappedDuties_applyDuties, applyDuties_applyDuties]

theorem exec_pix_again (h : exec .pix s = .next t) :
    ∃ group, t.evlog = s.evlog ++ group ∧ exec .pix t = .next { t with evlog := t.evlog ++ group } := by
  obtain rfl := Host.Outcome.next.inj h
  refine ⟨[.clear, .border s.borderD,
    .rect (px s.cfg s.sx.toNat) (py s.cfg s.sy.toNat) s.cfg.marker s.cfg.marker true, .flush], by simp, ?_⟩
  exact congrArg Host.Outcome.next (renderAt_renderAt _ _ s)

/-- A repeated EDGE within the window, measured from LAST_EV at the repeat's own time, changes nothing. -/
theorem exec_edge_again {pin : BitVec 2} {now : Time} (hpin : pin ≠ 0b11#2) (h : exec (.edge pin) s = .next t)
    (hin : elapsed (atTime now t) ≤ s.cfg.debounceMs) : exec (.edge pin) (atTime now t) = .next (atTime now t) := by
  obtain ⟨hbad, -⟩ | ⟨p, hp, -, hexec⟩ := exec_edge_cases s pin
  · exact absurd hbad hpin
  · obtain rfl := Host.Outcome.next.inj (hexec.symm.trans h)
    have hshut : presentEdge p (atTime now (presentEdge p s)) = atTime now (presentEdge p s) :=
      presentEdge_of_elapsed_le p (by simpa using hin)
    rw [exec_edge_of_inputOfPin _ hp, hshut]

theorem exec_levels_again {lvl : Levels} (now : Time) (h : exec (.levels lvl) s = .next t) :
    exec (.levels lvl) (atTime now t) = .next (atTime now t) :=
  exec_levels_of_prevLvl_eq (by rw [atTime_prevLvl, prevLvl_of_exec_levels h])

end Rows

/-- Settles O44, row by row: after the first performance CAL_DONE is set, the sample or the outputs hold what they would be given
again, the window runs from LAST_EV, and PREV_LVL holds the levels. -/
theorem repeatedCommandsAsTabled : Obligations.RepeatedCommandsAsTabled := by
  intro s t
  refine ⟨?calx, ?caly, exec_sampx_again, exec_sampy_again, exec_map_again, exec_pix_again, ?edge, ?levels⟩
  case calx => exact fun raw h => ⟨_, exec_calx_again raw h, raiseFault_fault .., raiseFault_offX ..⟩
  case caly => exact fun raw h => ⟨_, exec_caly_again raw h, raiseFault_fault .., raiseFault_offY ..⟩
  case edge => exact fun _ _ hpin h _ hin => exec_edge_again hpin h hin
  case levels => exact fun _ now h => exec_levels_again now h

end Sys2Proof.Machine
end

section
/-! SUPPORT. The opcode map as a rule of selection (30_encoding.md R62): the mask and match of a row are the opcode field and the
reserved bits together, so a word decodes to a row's command exactly when the row selects it. -/

namespace Sys2Proof

open Laws.EncodeSelectsRow (opcodeOf)

/-! ### The two parts of a word: the opcode field and the 28 bits below it -/

theorem eq_iff_opField_eq_and_low_eq (v u : Word) :
    v = u ↔ opField v = opField u ∧ v &&& 0x0FFFFFFF#32 = u &&& 0x0FFFFFFF#32 := by
  refine ⟨fun h => h ▸ ⟨rfl, rfl⟩, fun ⟨hop, hlow⟩ => BitVec.eq_of_getLsbD_eq fun j hj => ?_⟩
  by_cases hj28 : j < 28
  · have hbit : (0x0FFFFFFF#32).getLsbD j = true := (by decide : ∀ j < 28, (0x0FFFFFFF#32).getLsbD j = true) j hj28
    simpa [hbit] using congrArg (·.getLsbD j) hlow
  · have h := congrArg (·.getLsbD (j - 28)) hop
    simpa [opField, show j - 28 < 4 by omega, show 28 + (j - 28) = j by omega] using h

theorem opField_and (v u : Word) : opField (v &&& u) = opField v &&& opField u := BitVec.extractLsb'_and

/-- Every mask looks at the whole opcode field. -/
theorem opField_mask (f : Format) : opField f.mask = BitVec.allOnes 4 := by cases f <;> rfl

/-- No match has a bit below the opcode field. -/
theorem matchWord_low (op : Opcode) : op.matchWord &&& 0x0FFFFFFF#32 = 0#32 := by cases op <;> rfl

/-! ### The OP column -/

/-- The OP column lists the opcode fields of the match column. -/
theorem ofBits_eq_some_iff (b : BitVec 4) (op : Opcode) : Opcode.ofBits b = some op ↔ b = opField op.matchWord := by
  revert b
  cases op <;> decide

theorem ofBits_eq_none_iff (b : BitVec 4) : Opcode.ofBits b = none ↔ b = 0#4 ∨ 9#4 ≤ b := by
  revert b
  decide

/-! ### Selection -/

/-- "A word selects a command when (word AND mask) = match and, for EDGE, pin ≠ 0b11" (30_encoding.md R62). -/
def Opcode.Selects (op : Opcode) (w : Word) : Prop :=
  w &&& op.format.mask = op.matchWord ∧ ¬(op = .edge ∧ pinField w = 0b11#2)

theorem opcodeOf_instr (op : Opcode) (w : Word) : opcodeOf (op.instr w) = op := by cases op <;> rfl

/-- Mask and match say at once what the decoder checks in two steps: the opcode, then the reserved bits. -/
theorem and_mask_eq_matchWord_iff (w : Word) (op : Opcode) :
    w &&& op.format.mask = op.matchWord ↔
      Opcode.ofBits (opField w) = some op ∧ w &&& op.format.reserved = 0#32 := by
  rw [eq_iff_opField_eq_and_low_eq, opField_and, opField_mask, BitVec.and_allOnes, matchWord_low, BitVec.and_assoc,
    ofBits_eq_some_iff]
  rfl

theorem decode_eq_ok_iff (w : Word) (i : Instr) :
    decode w = .ok i ↔ ∃ op : Opcode, op.Selects w ∧ op.instr w = i := by
  constructor
  · intro h
    obtain ⟨-, hd⟩ | ⟨_, -, -, hd⟩ | ⟨-, -, -, hd⟩ | ⟨op, ho, hr, hp, hd⟩ := decode_cases w
    · cases hd.symm.trans h
    · cases hd.symm.trans h
    · cases hd.symm.trans h
    · exact ⟨op, ⟨(and_mask_eq_matchWord_iff w op).2 ⟨ho, hr⟩, hp⟩, Except.ok.inj (hd.symm.trans h)⟩
  · rintro ⟨op, ⟨hm, hp⟩, rfl⟩
    obtain ⟨ho, hr⟩ := (and_mask_eq_matchWord_iff w op).1 hm
    exact decode_of_legal ho hr hp

theorem instr_opcodeOf_of_decode {w : Word} {i : Instr} (h : decode w = .ok i) : (opcodeOf i).instr w = i := by
  obtain ⟨op, -, rfl⟩ := (decode_eq_ok_iff w i).1 h
  rw [opcodeOf_instr]

theorem decode_eq_instr_iff (op : Opcode) (w : Word) : decode w = .ok (op.instr w) ↔ op.Selects w := by
  rw [decode_eq_ok_iff]
  constructor
  · rintro ⟨op', hs, heq⟩
    have hop : op' = op := by rw [← opcodeOf_instr op' w, heq, opcodeOf_instr]
    exact hop ▸ hs
  · exact fun hs => ⟨op, hs, rfl⟩

/-- A row with an operand: some operand is decoded exactly when the row selects the word. -/
theorem exists_decode_iff_selects {α : Type} {op : Opcode} {command : α → Instr} {field : Word → α}
    (hop : ∀ a, opcodeOf (command a) = op) (hfield : ∀ w, op.instr w = command (field w)) (w : Word) :
    (∃ a, decode w = .ok (command a)) ↔ op.Selects w := by
  rw [← decode_eq_instr_iff]
  constructor
  · rintro ⟨a, h⟩
    have hinstr : op.instr w = command a := hop a ▸ instr_opcodeOf_of_decode h
    rw [h, hinstr]
  · exact fun h => ⟨field w, hfield w ▸ h⟩

/-! ### The rows, with the pin's condition where it stands -/

theorem selects_iff_of_ne_edge {op : Opcode} (hne : op ≠ .edge) (w : Word) :
    op.Selects w ↔ w &&& op.format.mask = op.matchWord := by simp [Opcode.Selects, hne]

/-- A row with an operand other than EDGE's. -/
theorem exists_decode_iff_masked {α : Type} {op : Opcode} {command : α → Instr} {field : Word → α} (hne : op ≠ .edge)
    (hop : ∀ a, opcodeOf (command a) = op) (hfield : ∀ w, op.instr w = command (field w)) (w : Word) :
    (∃ a, decode w = .ok (command a)) ↔ w &&& op.format.mask = op.matchWord :=
  (exists_decode_iff_selects hop hfield w).trans (selects_iff_of_ne_edge hne w)

/-- A row without an operand. -/
theorem decode_eq_instr_iff_masked {op : Opcode} (hne : op ≠ .edge) (w : Word) :
    decode w = .ok (op.instr w) ↔ w &&& op.format.mask = op.matchWord :=
  (decode_eq_instr_iff op w).trans (selects_iff_of_ne_edge hne w)

theorem edge_selects_iff (w : Word) :
    Opcode.edge.Selects w ↔ w &&& Format.fPin.mask = Opcode.edge.matchWord ∧ pinField w ≠ 0b11#2 := by
  simp [Opcode.Selects, Opcode.format]

theorem decode_eq_illegalOpcode_iff (w : Word) :
    decode w = .error .illegalOpcode ↔ Opcode.ofBits (opField w) = none := by
  obtain ⟨ho, hd⟩ | ⟨_, ho, -, hd⟩ | ⟨ho, -, -, hd⟩ | ⟨_, ho, -, -, hd⟩ := decode_cases w <;> simp [ho, hd]

end Sys2Proof

namespace Sys2Proof.Machine

/-- Settles O4: each row selects as `decode_eq_ok_iff` says, and the opcodes in no row record code 1. -/
theorem wordSelectsCommandByMaskAndMatch : Obligations.WordSelectsCommandByMaskAndMatch := by
  intro w
  refine ⟨?calx, ?caly, ?sampx, ?sampy, ?edge, ?levels, ?map, ?pix, ?illegal, ?recorded⟩
  case calx => exact exists_decode_iff_masked (op := .calx) (field := rawField) nofun (fun _ => rfl) (fun _ => rfl) w
  case caly => exact exists_decode_iff_masked (op := .caly) (field := rawField) nofun (fun _ => rfl) (fun _ => rfl) w
  case sampx => exact exists_decode_iff_masked (op := .sampx) (field := rawField) nofun (fun _ => rfl) (fun _ => rfl) w
  case sampy => exact exists_decode_iff_masked (op := .sampy) (field := rawField) nofun (fun _ => rfl) (fun _ => rfl) w
  case edge =>
    exact (exists_decode_iff_selects (op := .edge) (field := pinField) (fun _ => rfl) (fun _ => rfl) w).trans
      (edge_selects_iff w)
  case levels => exact exists_decode_iff_masked (op := .levels) (field := lvlField) nofun (fun _ => rfl) (fun _ => rfl) w
  case map => exact decode_eq_instr_iff_masked (op := .map) nofun w
  case pix => exact decode_eq_instr_iff_masked (op := .pix) nofun w
  case illegal => exact (decode_eq_illegalOpcode_iff w).trans (ofBits_eq_none_iff _)
  case recorded => exact fun s h => performWord_error h s

/-- Settles O5 row by row: the first table's lines are assembled, encoded and decoded, the second table's words decoded. -/
theorem workedEncodingsDecodeAsListed : Obligations.WorkedEncodingsDecodeAsListed := by
  refine ⟨⟨?calx, rfl, rfl⟩, ⟨?caly, rfl, rfl⟩, ⟨?sampx, rfl, rfl⟩, ⟨?sampy, rfl, rfl⟩, ⟨?edgeA, rfl, rfl⟩,
    ⟨?edgeB, rfl, rfl⟩, ⟨?edgeC, rfl, rfl⟩, ⟨?levels, rfl, rfl⟩, ⟨?map, rfl, rfl⟩, ⟨?pix, rfl, rfl⟩,
    ?reservedPin, ?calxReserved, ?mapReserved, ?opcode0, ?opcode9⟩
  all_goals decide

end Sys2Proof.Machine
end

section
/-! SUPPORT. Calibration and sampling (40_calibrate_sample.md R69 to R76): the words of the four F_RAW rows, the record of a
reserved bit for every opcode, the first capture of an offset on either axis, and what the two filters leave in the sample
registers. -/

namespace Sys2Proof

/-! ### The words of format F_RAW -/

theorem le_of_getLsbD_matchWord (op : Opcode) : ∀ j < 32, op.matchWord.getLsbD j = true → 28 ≤ j := by
  cases op <;> decide

/-- A row with a `raw` operand selects its match with any reading in the field (30_encoding.md R59, R62). -/
theorem selects_matchWord_or_raw {op : Opcode} (hf : op.format = .fRaw) (raw : Raw) :
    op.Selects (op.matchWord ||| raw.setWidth 32) := by
  have hne : op ≠ .edge := by rintro rfl; cases hf
  have hrow : op.matchWord &&& op.format.mask = op.matchWord := by cases op <;> rfl
  refine (selects_iff_of_ne_edge hne _).2 (Laws.EncodeSelectsRow.row_of_field _ _ raw hrow ?_)
  rw [hf]
  decide

/-- The word of a row with a `raw` operand decodes to the row's command, the reading whole (30_encoding.md R59). -/
theorem decode_matchWord_or_raw {op : Opcode} {command : Raw → Instr} (hf : op.format = .fRaw)
    (hfield : ∀ w, op.instr w = command (rawField w)) (raw : Raw) :
    decode (op.matchWord ||| raw.setWidth 32) = .ok (command raw) := by
  have hread : rawField (op.matchWord ||| raw.setWidth 32) = raw :=
    extract_operand _ raw (fun j hj hbit => by have := le_of_getLsbD_matchWord op j hj hbit; omega) (by decide)
  rw [(decode_eq_instr_iff op _).2 (selects_matchWord_or_raw hf raw), hfield, hread]

end Sys2Proof

namespace Sys2Proof.Machine

/-- The reserved bits of any legal opcode are recorded as code 2 (30_encoding.md R63). -/
theorem recordsReservedBits_of_opcode (op : Opcode) : RecordsReservedBits (opField op.matchWord) op.format.reserved :=
  fun w s hop hr => performWord_error (decode_of_reserved ((ofBits_eq_some_iff (opField w) op).2 hop) hr) s

/-! ### The first capture of an offset -/

theorem captureOffset_of_not_isCalibrated {ax : Axis} (raw : Raw) {s : State}
    (hc : isCalibrated s.calDone ax = false) :
    captureOffset ax raw s =
      setCalDone (setCalibrated s.calDone ax) (setOffset ax (BitVec.ofInt 16 (offsetFor s.cfg raw)) s) :=
  if_neg (Bool.eq_false_iff.1 hc)

@[simp] theorem captureOffset_cfg (ax : Axis) (raw : Raw) (s : State) : (captureOffset ax raw s).cfg = s.cfg := by
  obtain ⟨-, h⟩ | ⟨-, h⟩ := captureOffset_cases ax raw s <;> simp [h]

/-- The offset a first capture leaves is exact on either axis (40_calibrate_sample.md R69, R70). -/
theorem toInt_offsetOf_captureOffset {ax : Axis} (raw : Raw) {s : State} (hp : s.cfg.Legal)
    (hc : isCalibrated s.calDone ax = false) :
    (offsetOf (captureOffset ax raw s) ax).toInt = (s.cfg.calMid : Int) - raw.toNat := by
  rw [captureOffset_of_not_isCalibrated raw hc]
  cases ax <;> exact toInt_offsetFor hp raw

/-- Settles O20: a first capture by `captureOffset_of_not_isCalibrated`, any later one by `captureOffset_of_isCalibrated`. -/
theorem calxCapturesTheXOffsetOnce : Obligations.CalxCapturesTheXOffsetOnce := by
  intro raw s hp
  refine ⟨decode_matchWord_or_raw (op := .calx) rfl (fun _ => rfl) raw, recordsReservedBits_of_opcode .calx, ?captured,
    ?again⟩
  case captured =>
    intro hc
    rw [← isCalibrated_x] at hc
    rw [exec_calx, captureOffset_of_not_isCalibrated raw hc]
    exact ⟨_, rfl, toInt_offsetFor hp raw, (setCalibrated_x _).1, (setCalibrated_x _).2, rfl⟩
  case again =>
    intro hc
    rw [← isCalibrated_x] at hc
    exact congrArg Host.Outcome.next (captureOffset_of_isCalibrated raw hc)

/-- Settles O21, as O20 on the other axis. -/
theorem calyCapturesTheYOffsetOnce : Obligations.CalyCapturesTheYOffsetOnce := by
  intro raw s hp
  refine ⟨decode_matchWord_or_raw (op := .caly) rfl (fun _ => rfl) raw, recordsReservedBits_of_opcode .caly, ?captured,
    ?again⟩
  case captured =>
    intro hc
    rw [← isCalibrated_y] at hc
    rw [exec_caly, captureOffset_of_not_isCalibrated raw hc]
    exact ⟨_, rfl, toInt_offsetFor hp raw, (setCalibrated_y _).1, (setCalibrated_y _).2, rfl⟩
  case again =>
    intro hc
    rw [← isCalibrated_y] at hc
    exact congrArg Host.Outcome.next (captureOffset_of_isCalibrated raw hc)

/-! ### The hold filter on X and the clamp on Y -/

section Samples

variable {raw : Raw} {s : State}

/-- A sum in 0..4095 is accepted (40_calibrate_sample.md R74). -/
theorem holdSample_of_in_range (hp : s.cfg.Legal) (h0 : 0 ≤ raw.toNat + s.offX.toInt)
    (h1 : raw.toNat + s.offX.toInt ≤ 4095) :
    holdSample raw s = { s with sx := BitVec.ofInt 12 (raw.toNat + s.offX.toInt) } :=
  if_pos ⟨h0, by rw [hp.adcMax_eq]; exact h1⟩

/-- Any other sum is held (40_calibrate_sample.md R75). -/
theorem holdSample_of_out_of_range (hp : s.cfg.Legal)
    (h : raw.toNat + s.offX.toInt < 0 ∨ 4095 < raw.toNat + s.offX.toInt) : holdSample raw s = s := by
  refine if_neg fun hin => ?_
  rw [hp.adcMax_eq, adjusted_eq] at hin
  omega

theorem toNat_sx_holdSample (hp : s.cfg.Legal) (h0 : 0 ≤ raw.toNat + s.offX.toInt)
    (h1 : raw.toNat + s.offX.toInt ≤ 4095) : ((holdSample raw s).sx.toNat : Int) = raw.toNat + s.offX.toInt := by
  rw [holdSample_of_in_range hp h0 h1]
  exact toNat_ofInt_sample h0 h1

theorem clamp_eq_max_min {lo hi : Int} (h : lo ≤ hi) (v : Int) : clamp v lo hi = max lo (min v hi) := by
  unfold clamp
  split
  · omega
  · split <;> omega

theorem toNat_sy_clampSample (hp : s.cfg.Legal) :
    ((clampSample raw s).sy.toNat : Int) = max 0 (min (raw.toNat + s.offY.toInt) 4095) := by
  rw [clampSample_sy, hp.adcMax_eq, clamp_eq_max_min (by decide), adjusted_eq]
  exact toNat_ofInt_sample (by omega) (by omega)

end Samples

/-- Settles O22 by the two cases of the hold filter. -/
theorem sampxAcceptsInRangeAndHolds : Obligations.SampxAcceptsInRangeAndHolds := by
  intro raw s hp sum
  refine ⟨decode_matchWord_or_raw (op := .sampx) rfl (fun _ => rfl) raw, recordsReservedBits_of_opcode .sampx,
    ?accepted, ?held⟩
  case accepted =>
    intro h0 h1
    rw [exec_sampx, holdSample_of_in_range hp h0 h1]
    exact ⟨_, rfl, toNat_ofInt_sample h0 h1, rfl⟩
  case held => exact fun h => congrArg Host.Outcome.next (holdSample_of_out_of_range hp h)

/-- Settles O23: the sample is the clamped sum, and the update writes SY alone. -/
theorem sampyClampsAndNeverHolds : Obligations.SampyClampsAndNeverHolds := fun raw s hp =>
  ⟨decode_matchWord_or_raw (op := .sampy) rfl (fun _ => rfl) raw, recordsReservedBits_of_opcode .sampy,
    clampSample raw s, exec_sampy s raw, toNat_sy_clampSample hp, rfl⟩

/-! ### A sample of the calibration reading -/

/-- With CAL_MID 2048 the captured offset lies in -2047..2048 and the sum of the same reading is 2048, on either axis
(40_calibrate_sample.md R71). -/
theorem captureOffset_midpoint {ax : Axis} (raw : Raw) {s : State} (hp : s.cfg.Legal) (hmid : s.cfg.calMid = 2048)
    (hc : isCalibrated s.calDone ax = false) :
    let off := (offsetOf (captureOffset ax raw s) ax).toInt
    off = 2048 - raw.toNat ∧ -2047 ≤ off ∧ off ≤ 2048 ∧ raw.toNat + off = 2048 := by
  have hoff := toInt_offsetOf_captureOffset raw hp hc
  rw [hmid] at hoff
  have := raw.isLt
  omega

theorem sample_eq_midpoint {v : Sample} (h : (v.toNat : Int) = 2048) : v = 2048#12 :=
  BitVec.eq_of_toNat_eq (Int.ofNat_inj.1 h)

/-- Settles O24: after the capture the sum is 2048, which the hold filter accepts and the clamp keeps. -/
theorem sampleOfTheCalibrationReadingIsTheMidpoint : Obligations.SampleOfTheCalibrationReadingIsTheMidpoint := by
  intro raw s hp hmid
  have hlegal : ∀ ax, (captureOffset ax raw s).cfg.Legal := fun ax => by rwa [captureOffset_cfg]
  refine ⟨fun hc => ?x, fun hc => ?y⟩
  case x =>
    rw [← isCalibrated_x] at hc
    obtain ⟨hoff, hlow, hhigh, hsum⟩ := captureOffset_midpoint raw hp hmid hc
    rw [offsetOf] at hoff hlow hhigh hsum
    have hsx := toNat_sx_holdSample (raw := raw) (hlegal .x) (by omega) (by omega)
    exact ⟨_, _, exec_calx s raw, exec_sampx _ raw, hoff, hlow, hhigh, hsum, sample_eq_midpoint (hsx.trans hsum)⟩
  case y =>
    rw [← isCalibrated_y] at hc
    obtain ⟨hoff, hlow, hhigh, hsum⟩ := captureOffset_midpoint raw hp hmid hc
    rw [offsetOf] at hoff hlow hhigh hsum
    have hsy := toNat_sy_clampSample (raw := raw) (hlegal .y)
    rw [hsum] at hsy
    exact ⟨_, _, exec_caly s raw, exec_sampy _ raw, hoff, hlow, hhigh, hsum, sample_eq_midpoint hsy⟩

end Sys2Proof.Machine
end

section
/-! SUPPORT. Edges (41_debounce.md R81 to R95): one edge through the gate by its elapsed time, the dispatch of each input, LEVELS
as one edge on the lowest input that fell, and what the two commands leave unchanged. -/

namespace Sys2Proof.Machine

/-! ### The gate -/

/-- Past the window the edge restarts it and is dispatched (41_debounce.md R82, R88). -/
theorem presentEdge_of_lt_elapsed (p : Input) {s : State} (h : s.cfg.debounceMs < elapsed s) :
    presentEdge p s = dispatch p { s with lastEv := s.host.nowMs } := by
  rw [presentEdge_eq, ← elapsed_eq_elapsedSince, if_neg (Nat.not_le_of_lt h)]

/-- One edge by its elapsed time: ignored or accepted (41_debounce.md R82, R88). -/
theorem presentEdge_cases (p : Input) (s : State) :
    (elapsed s ≤ s.cfg.debounceMs ∧ presentEdge p s = s) ∨
    (s.cfg.debounceMs < elapsed s ∧ presentEdge p s = dispatch p { s with lastEv := s.host.nowMs }) :=
  (Nat.lt_or_ge _ _).symm.imp (fun h => ⟨h, presentEdge_of_elapsed_le p h⟩) (fun h => ⟨h, presentEdge_of_lt_elapsed p h⟩)

/-- A legal pin is one edge on some input (30_encoding.md R60). -/
theorem exists_exec_edge_eq {pin : BitVec 2} (hpin : pin ≠ 0b11#2) (s : State) :
    ∃ p, exec (.edge pin) s = .next (presentEdge p s) := by
  obtain ⟨hbad, -⟩ | ⟨p, -, -, h⟩ := exec_edge_cases s pin
  · exact absurd hbad hpin
  · exact ⟨p, h⟩

/-- Settles O26 by the two answers of the gate. -/
theorem gateIgnoresWithinTheWindow : Obligations.GateIgnoresWithinTheWindow := by
  intro pin s hpin
  obtain ⟨p, hexec⟩ := exists_exec_edge_eq hpin s
  rw [hexec]
  refine ⟨fun hin => ?ignored, fun hpast => ?accepted⟩
  case ignored => rw [presentEdge_of_elapsed_le p hin]
  case accepted => exact ⟨_, rfl, by rw [presentEdge_of_lt_elapsed p hpast, dispatch_lastEv]⟩

/-- The elapsed time in true times: the distance mod 2^32, across any number of wraps of the counter (41_debounce.md R91). -/
theorem elapsed_eq_true_distance {s : State} {t1 t2 : Nat} (hle : t1 ≤ t2) (hlast : s.lastEv = BitVec.ofNat 32 t1)
    (hnow : s.host.nowMs = BitVec.ofNat 32 t2) : elapsed s = (t2 - t1) % 2 ^ 32 := by
  rw [elapsed, hlast, hnow, BitVec.toNat_ofNat, BitVec.toNat_ofNat]
  omega

/-- Settles O33: O26 with the elapsed time read as the true distance. -/
theorem edgeIsAcceptedByItsTrueDistance : Obligations.EdgeIsAcceptedByItsTrueDistance := by
  intro pin s t1 t2 hpin hle hlast hnow
  rw [← elapsed_eq_true_distance hle hlast hnow, ← hnow]
  exact gateIgnoresWithinTheWindow pin s hpin

/-! ### The dispatch of each input -/

/-- Input C: the pin and its event, then the border and its event (41_debounce.md R87). -/
theorem dispatch_c (s : State) :
    dispatch .c s =
      { s with
        ledPin := !s.ledPin, borderD := !s.borderD
        evlog := s.evlog ++ [.pin (!s.ledPin), .border (!s.borderD)] } := by
  simp [dispatch, toggleBorder, togglePin, emit]

section Accepted

variable {s : State} (h : s.cfg.debounceMs < elapsed s)
include h

theorem exec_edge_a_of_lt_elapsed :
    exec (.edge 0b00#2) s = .next { s with lastEv := s.host.nowMs, ledMode := nextMode s.ledMode } := by
  rw [exec_edge_a, presentEdge_of_lt_elapsed .a h]
  rfl

theorem exec_edge_b_of_lt_elapsed :
    exec (.edge 0b01#2) s =
      .next { s with lastEv := s.host.nowMs, halted := true, evlog := s.evlog ++ [.boot] } := by
  rw [exec_edge_b, presentEdge_of_lt_elapsed .b h]
  rfl

theorem exec_edge_c_of_lt_elapsed :
    exec (.edge 0b10#2) s =
      .next { s with
        lastEv := s.host.nowMs, ledPin := !s.ledPin, borderD := !s.borderD
        evlog := s.evlog ++ [.pin (!s.ledPin), .border (!s.borderD)] } := by
  rw [exec_edge_c, presentEdge_of_lt_elapsed .c h, dispatch_c]

end Accepted

/-- Settles O27: the mode written is `nextMode`, which counts mod 4. -/
theorem acceptedEdgeOnAAdvancesTheMode : Obligations.AcceptedEdgeOnAAdvancesTheMode :=
  fun s h => ⟨_, exec_edge_a_of_lt_elapsed h, nextMode_toNat s.ledMode, rfl⟩

/-- Settles O29: the dispatch input by input, then the accepted edge on C. -/
theorem acceptedEdgeOnCTogglesPinAndBorder : Obligations.AcceptedEdgeOnCTogglesPinAndBorder :=
  ⟨fun s => ⟨rfl, rfl, dispatch_c s⟩, fun _ h => exec_edge_c_of_lt_elapsed h⟩

/-! ### The cycle of the mode -/

theorem ledMode_of_exec_edge_a {s t : State} (h : s.cfg.debounceMs < elapsed s)
    (hexec : exec (.edge 0b00#2) s = .next t) : t.ledMode = nextMode s.ledMode := by
  rw [exec_edge_a_of_lt_elapsed h] at hexec
  obtain rfl := Host.Outcome.next.inj hexec
  rfl

/-- The four modes are one cycle (10_state.md R24). -/
theorem nextMode_four_cycle (c : BitVec 2) :
    nextMode (nextMode (nextMode (nextMode c))) = c ∧ nextMode c ≠ c ∧ nextMode (nextMode c) ≠ c ∧
      nextMode (nextMode (nextMode c)) ≠ c := by revert c; decide

/-- Settles O34: each accepted A edge is one `nextMode`, and four of them are a cycle. -/
theorem modeIsAFourCycle : Obligations.ModeIsAFourCycle := by
  intro s1 t1 s2 t2 s3 t3 s4 t4 hpast1 hexec1 hkeep2 hpast2 hexec2 hkeep3 hpast3 hexec3 hkeep4 hpast4 hexec4
  have hmode1 := ledMode_of_exec_edge_a hpast1 hexec1
  have hmode2 := ledMode_of_exec_edge_a hpast2 hexec2
  have hmode3 := ledMode_of_exec_edge_a hpast3 hexec3
  have hmode4 := ledMode_of_exec_edge_a hpast4 hexec4
  rw [hmode4, hkeep4, hmode3, hkeep3, hmode2, hkeep2, hmode1]
  exact nextMode_four_cycle s1.ledMode

/-! ### LEVELS is one edge on the lowest input that fell -/

/-- The mask of falling edges holds the bit of each input that fell (41_debounce.md R80, R89). -/
theorem hasFall_fallingEdges (s : State) (lvl : Levels) (p : Input) :
    hasFall (fallingEdges s.prevLvl lvl) p = fell s lvl (levelBit p) := by
  cases p <;> simp [hasFall, fallingEdges, fell, levelBit]

/-- LEVELS tells the three inputs apart in the gate order (41_debounce.md R89, R90). -/
theorem exec_levels_eq_exec_edge (lvl : Levels) (s : State) :
    exec (.levels lvl) s =
      if fell s lvl 0 = true then exec (.edge 0b00#2) { s with prevLvl := lvl }
      else if fell s lvl 1 = true then exec (.edge 0b01#2) { s with prevLvl := lvl }
      else if fell s lvl 2 = true then exec (.edge 0b10#2) { s with prevLvl := lvl }
      else .next { s with prevLvl := lvl } := by
  rw [exec_levels]
  simp only [gateOrder, List.find?_cons, List.find?_nil, hasFall_fallingEdges, levelBit]
  cases fell s lvl 0 with
  | true => rfl
  | false =>
    cases fell s lvl 1 with
    | true => rfl
    | false => cases fell s lvl 2 <;> rfl

/-- LEVELS stores the levels and presents at most one edge. -/
theorem exec_levels_cases (lvl : Levels) (s : State) :
    exec (.levels lvl) s = .next (setPrevLvl lvl s) ∨
    ∃ p, exec (.levels lvl) s = .next (presentEdge p (setPrevLvl lvl s)) := by
  rw [exec_levels]
  cases gateOrder.find? (hasFall (fallingEdges s.prevLvl lvl)) with
  | none => exact .inl rfl
  | some p => exact .inr ⟨p, rfl⟩

/-- Right after an accepted edge no time has elapsed (41_debounce.md R90). -/
theorem elapsed_of_lastEv_eq_now {s : State} (h : s.lastEv = s.host.nowMs) : elapsed s = 0 := by
  rw [elapsed_eq_elapsedSince, h, elapsedSince_self]

/-- An EDGE that moves LAST_EV was accepted, so LAST_EV is the present time. -/
theorem lastEv_eq_now_of_exec_edge {pin : BitVec 2} {s t : State} (hexec : exec (.edge pin) s = .next t)
    (hmoved : t.lastEv ≠ s.lastEv) : t.lastEv = t.host.nowMs := by
  obtain ⟨-, h⟩ | ⟨p, -, -, h⟩ := exec_edge_cases s pin
  · obtain rfl := Host.Outcome.next.inj (h.symm.trans hexec)
    exact absurd (raiseFault_lastEv ..) hmoved
  · obtain rfl := Host.Outcome.next.inj (h.symm.trans hexec)
    obtain ⟨-, h⟩ | ⟨-, h⟩ := presentEdge_cases p s
    · exact absurd (congrArg State.lastEv h) hmoved
    · rw [h, dispatch_lastEv, dispatch_host]

/-- Settles O32: the lowest fall by `exec_levels_eq_exec_edge`; a second EDGE at the same `now` finds an elapsed time of 0. -/
theorem coincidentFallsAreOneEdge : Obligations.CoincidentFallsAreOneEdge := by
  refine ⟨exec_levels_eq_exec_edge, fun p q s t hq hexec hmoved => ?_⟩
  have hzero := elapsed_of_lastEv_eq_now (lastEv_eq_now_of_exec_edge hexec hmoved)
  exact (gateIgnoresWithinTheWindow q t hq).1 (hzero ▸ Nat.zero_le _)

/-- The word of LEVELS decodes to LEVELS with the same levels (30_encoding.md R61, R62). -/
theorem decode_levels_word (lvl : Levels) : decode (0x60000000#32 ||| lvl.setWidth 32) = .ok (.levels lvl) := by
  have hread : lvlField (0x60000000#32 ||| lvl.setWidth 32) = lvl :=
    extract_operand _ lvl (by decide) (by decide)
  have hdecode : decode (0x60000000#32 ||| lvl.setWidth 32) =
      .ok (.levels (lvlField (0x60000000#32 ||| lvl.setWidth 32))) :=
    (decode_eq_instr_iff_masked (op := .levels) nofun _).2 (Laws.EncodeSelectsRow.levels lvl)
  rw [hdecode, hread]

/-- Settles O31: LEVELS is the EDGE of the lowest fall, from the state with the levels stored. -/
theorem levelsDetectsAndDebouncesFalls : Obligations.LevelsDetectsAndDebouncesFalls := by
  intro lvl s
  refine ⟨decode_levels_word lvl, recordsReservedBits_of_opcode .levels, ?noFall, ?ignored, ?fellA, ?fellB, ?fellC⟩
  case noFall =>
    intro ha hb hc
    simp [exec_levels_eq_exec_edge, ha, hb, hc]
  case ignored =>
    intro hin
    obtain h | ⟨p, h⟩ := exec_levels_cases lvl s
    · exact h
    · exact h.trans (congrArg Host.Outcome.next (presentEdge_of_elapsed_le p (s := setPrevLvl lvl s) hin))
  case fellA =>
    intro hpast ha
    rw [exec_levels_eq_exec_edge, if_pos ha]
    exact acceptedEdgeOnAAdvancesTheMode { s with prevLvl := lvl } hpast
  case fellB =>
    intro hpast ha hb
    rw [exec_levels_eq_exec_edge, if_neg (ne_true_of_eq_false ha), if_pos hb]
    exact exec_edge_b_of_lt_elapsed (s := { s with prevLvl := lvl }) hpast
  case fellC =>
    intro hpast ha hb hc
    rw [exec_levels_eq_exec_edge, if_neg (ne_true_of_eq_false ha), if_neg (ne_true_of_eq_false hb), if_pos hc]
    exact exec_edge_c_of_lt_elapsed (s := { s with prevLvl := lvl }) hpast

/-! ### What EDGE and LEVELS leave unchanged, and the events they append -/

/-- One edge writes LAST_EV, the mode, the border, the pin, HALTED and the log, and nothing else (41_debounce.md R95). -/
theorem presentEdge_frame (p : Input) (s : State) :
    presentEdge p s =
      { s with
        lastEv := (presentEdge p s).lastEv, ledMode := (presentEdge p s).ledMode
        borderD := (presentEdge p s).borderD, ledPin := (presentEdge p s).ledPin
        halted := (presentEdge p s).halted, evlog := (presentEdge p s).evlog } := by
  obtain ⟨-, h⟩ | ⟨-, h⟩ := presentEdge_cases p s
  · rw [h]
  · rw [h, dispatch_lastEv]
    exact dispatch_frame p _

/-- `t`'s log is `s`'s with PIN, BORDER and BOOT events appended (41_debounce.md R95). -/
def AppendsEdgeEvents (s t : State) : Prop :=
  ∃ group, t.evlog = s.evlog ++ group ∧ ∀ e ∈ group, e = .boot ∨ (∃ v, e = .pin v) ∨ ∃ d, e = .border d

theorem appendsEdgeEvents_of_evlog_eq {s t : State} (h : t.evlog = s.evlog) : AppendsEdgeEvents s t :=
  ⟨[], by rw [h, List.append_nil], nofun⟩

theorem dispatch_appends (p : Input) (s : State) : AppendsEdgeEvents s (dispatch p s) := by
  cases p with
  | a => exact appendsEdgeEvents_of_evlog_eq rfl
  | b => exact ⟨[.boot], rfl, by simp⟩
  | c => exact ⟨[.pin (!s.ledPin), .border (!s.borderD)], by rw [dispatch_c], by simp⟩

theorem presentEdge_appends (p : Input) (s : State) : AppendsEdgeEvents s (presentEdge p s) := by
  obtain ⟨-, h⟩ | ⟨-, h⟩ := presentEdge_cases p s
  · exact appendsEdgeEvents_of_evlog_eq (congrArg State.evlog h)
  · exact h ▸ dispatch_appends p { s with lastEv := s.host.nowMs }

theorem exec_edge_appends {pin : BitVec 2} {s t : State} (hexec : exec (.edge pin) s = .next t) :
    AppendsEdgeEvents s t := by
  obtain ⟨-, h⟩ | ⟨p, -, -, h⟩ := exec_edge_cases s pin
  · obtain rfl := Host.Outcome.next.inj (h.symm.trans hexec)
    exact appendsEdgeEvents_of_evlog_eq (raiseFault_evlog ..)
  · obtain rfl := Host.Outcome.next.inj (h.symm.trans hexec)
    exact presentEdge_appends p s

theorem exec_levels_appends {lvl : Levels} {s t : State} (hexec : exec (.levels lvl) s = .next t) :
    AppendsEdgeEvents s t := by
  obtain h | ⟨p, h⟩ := exec_levels_cases lvl s
  · obtain rfl := Host.Outcome.next.inj (h.symm.trans hexec)
    exact appendsEdgeEvents_of_evlog_eq (setPrevLvl_evlog ..)
  · obtain rfl := Host.Outcome.next.inj (h.symm.trans hexec)
    exact presentEdge_appends p (setPrevLvl lvl s)

/-- Settles O36: the frame and the events of the one edge either command presents. -/
theorem edgeCommandsWriteOnlyTheirElements : Obligations.EdgeCommandsWriteOnlyTheirElements := by
  intro s t
  refine ⟨?edge, ?levels, ?events⟩
  case edge =>
    rintro ⟨pin, hpin, hexec⟩
    obtain ⟨p, h⟩ := exists_exec_edge_eq hpin s
    obtain rfl := Host.Outcome.next.inj (h.symm.trans hexec)
    exact presentEdge_frame p s
  case levels =>
    rintro ⟨lvl, hexec⟩
    obtain h | ⟨p, h⟩ := exec_levels_cases lvl s
    · obtain rfl := Host.Outcome.next.inj (h.symm.trans hexec)
      rfl
    · obtain rfl := Host.Outcome.next.inj (h.symm.trans hexec)
      rw [presentEdge_prevLvl]
      exact presentEdge_frame p (setPrevLvl lvl s)
  case events =>
    rintro (⟨_, hexec⟩ | ⟨_, hexec⟩)
    · exact exec_edge_appends hexec
    · exact exec_levels_appends hexec

end Sys2Proof.Machine
end

section
/-! SUPPORT. The mapper (42_pwm_map.md R96 to R102): the laws of the intensity function, the mode dispatch by the code in LED_MODE,
and MAP's two duty registers, which hold the applied duties exactly. -/

namespace Sys2Proof.Machine

/-! ### The intensity function -/

/-- A larger sample has no smaller duty (42_pwm_map.md R102, law 1). -/
theorem duty_mono {p : Params} {m n : Nat} (hmn : m ≤ n) (hn : n ≤ p.adcMax) : duty p m ≤ duty p n := by
  rw [duty_eq (hmn.trans hn), duty_eq hn]
  exact Nat.div_le_div_right (Nat.mul_le_mul_right _ hmn)

/-- Full scale is the whole period (42_pwm_map.md R102, laws 3 and 5). -/
theorem duty_adcMax {p : Params} (hp : p.Legal) : duty p p.adcMax = p.pwmPeriod := by
  have hpos : 0 < p.adcMax := by rw [hp.adcMax_eq]; decide
  rw [duty_eq le_rfl, Nat.mul_div_cancel_left _ hpos]

/-- Below full scale the duty is below the period, since the period is not 0 (42_pwm_map.md R102, law 5). -/
theorem duty_lt {p : Params} (hp : p.Legal) {n : Nat} (hn : n < p.adcMax) : duty p n < p.pwmPeriod := by
  rw [duty_eq hn.le]
  exact Nat.div_lt_of_lt_mul (Nat.mul_lt_mul_of_pos_right hn hp.one_le_pwmPeriod)

/-- Settles O39: laws 1 and 5 by `duty_mono`, `duty_adcMax` and `duty_lt`; laws 2 to 4 are three values of the default function. -/
theorem dutyObeysItsLaws : Obligations.DutyObeysItsLaws := by
  refine ⟨fun _ _ hmn hn => duty_mono hmn hn, ?zero, ?full, ?mid, fun p hp => ⟨duty_adcMax hp, fun n hn => duty_lt hp hn⟩⟩
  case zero => rfl
  case full => exact duty_adcMax default_params_legal
  case mid => rfl

/-! ### MAP -/

/-- Red has its duty in modes 1 and 3, blue in modes 2 and 3 (42_pwm_map.md R100). -/
theorem channelDuties_ledModeOf (c : BitVec 2) (dx dy : Nat) :
    channelDuties (ledModeOf c) dx dy =
      (if c = 1#2 ∨ c = 3#2 then dx else 0, if c = 2#2 ∨ c = 3#2 then dy else 0) := by
  have hcode : c = 0#2 ∨ c = 1#2 ∨ c = 2#2 ∨ c = 3#2 := by revert c; decide
  obtain rfl | rfl | rfl | rfl := hcode <;> rfl

/-- The duty of a sample register, in numbers (42_pwm_map.md R96, R98). -/
theorem duty_sample {p : Params} (hp : p.Legal) (v : Sample) : duty p v.toNat = v.toNat * p.pwmPeriod / 4095 := by
  rw [duty_eq (sample_le hp v), hp.adcMax_eq]

/-- The pair MAP applies, in numbers (42_pwm_map.md R97). -/
theorem mappedDuties_eq {s : State} (hp : s.cfg.Legal) :
    mappedDuties s =
      (if s.ledMode = 1#2 ∨ s.ledMode = 3#2 then s.sx.toNat * s.cfg.pwmPeriod / 4095 else 0,
        if s.ledMode = 2#2 ∨ s.ledMode = 3#2 then s.sy.toNat * s.cfg.pwmPeriod / 4095 else 0) := by
  rw [mappedDuties, channelDuties_ledModeOf, duty_sample hp, duty_sample hp]

/-- A duty up to the period fits its 16-bit register (00_scope.md R8). -/
theorem toNat_ofNat_duty {p : Params} (hp : p.Legal) {n : Nat} (hn : n ≤ p.pwmPeriod) :
    (BitVec.ofNat 16 n).toNat = n := by
  have := hp.pwmPeriod_le
  rw [BitVec.toNat_ofNat, Nat.mod_eq_of_lt (by omega)]

theorem toNat_pwm_applyDuties_mappedDuties {s : State} (hp : s.cfg.Legal) :
    (applyDuties (mappedDuties s) s).pwmR.toNat = (mappedDuties s).1 ∧
      (applyDuties (mappedDuties s) s).pwmB.toNat = (mappedDuties s).2 := by
  obtain ⟨hr, hb⟩ := mappedDuties_le s
  exact ⟨toNat_ofNat_duty hp hr, toNat_ofNat_duty hp hb⟩

/-- Settles O38: the registers and the log hold the pair `mappedDuties_eq`, and the update writes nothing else. -/
theorem mapAppliesTheDutiesOfTheMode : Obligations.MapAppliesTheDutiesOfTheMode := by
  intro s hp dx dy r b
  have hpair : mappedDuties s = (r, b) := mappedDuties_eq hp
  obtain ⟨hr, hb⟩ := toNat_pwm_applyDuties_mappedDuties hp
  rw [hpair] at hr hb
  refine ⟨(decode_eq_instr_iff_masked (op := .map) nofun _).2 rfl, recordsReservedBits_of_opcode .map, ?_⟩
  exact ⟨applyDuties (r, b) s, by rw [exec_map, hpair], hr, hb, by simp, rfl⟩

end Sys2Proof.Machine
end

section
/-! SUPPORT. The pixel mapper (43_pixel.md R104 to R109): one coordinate rises and the other falls with its
sample, and both fit their registers, so what PIX writes is exact and the marker stays in the display. -/

namespace Sys2Proof.Machine

/-! ### The coordinate functions -/

/-- A larger X sample is not further left (43_pixel.md R106). -/
theorem px_mono {p : Params} {m n : Nat} (hmn : m ≤ n) (hn : n ≤ p.adcMax) : px p m ≤ px p n := by
  rw [px_eq (hmn.trans hn), px_eq hn]
  exact Nat.div_le_div_right (Nat.mul_le_mul_right _ hmn)

/-- A larger Y sample is not further down, since the sample is taken from full scale (43_pixel.md R106). -/
theorem py_anti (p : Params) {m n : Nat} (hmn : m ≤ n) : py p n ≤ py p m := by
  rw [py_eq, py_eq]
  exact Nat.div_le_div_right (Nat.mul_le_mul_right _ (Nat.sub_le_sub_left hmn _))

/-- Settles O41: `px_mono` up to the full scale 4095, and `py_anti`. -/
theorem yIsInvertedAndXIsNot : Obligations.YIsInvertedAndXIsNot := by
  intro p m n hp hmn hn
  rw [← hp.adcMax_eq] at hn
  exact ⟨px_mono hmn hn, py_anti p hmn⟩

/-- The column of a sample register, in numbers (43_pixel.md R104). -/
theorem px_sample {p : Params} (hp : p.Legal) (v : Sample) : px p v.toNat = v.toNat * (p.dispW - p.marker) / 4095 := by
  rw [px_eq (sample_le hp v), hp.adcMax_eq]

/-- The row of a sample register, in numbers (43_pixel.md R104). -/
theorem py_sample {p : Params} (hp : p.Legal) (v : Sample) :
    py p v.toNat = (4095 - v.toNat) * (p.dispH - p.marker) / 4095 := by
  rw [py_eq, hp.adcMax_eq]

/-! ### PIX -/

/-- Both coordinates fit their 8-bit registers (43_pixel.md R109). -/
theorem toNat_pix_renderAt {s : State} (hp : s.cfg.Legal) (sx sy : Nat) :
    (renderAt (px s.cfg sx) (py s.cfg sy) s).pixX.toNat = px s.cfg sx ∧
      (renderAt (px s.cfg sx) (py s.cfg sy) s).pixY.toNat = py s.cfg sy := by
  have hx : px s.cfg sx < 2 ^ 8 := by have := px_le s.cfg sx; have := hp.dispW_le; omega
  have hy : py s.cfg sy < 2 ^ 8 := by have := py_le s.cfg sy; have := hp.dispH_le; omega
  exact ⟨by rw [renderAt_pixX, BitVec.toNat_ofNat, Nat.mod_eq_of_lt hx],
    by rw [renderAt_pixY, BitVec.toNat_ofNat, Nat.mod_eq_of_lt hy]⟩

/-- Settles O40: the registers and the log hold the pair of `px_sample` and `py_sample`, and the update writes nothing else. -/
theorem pixPlacesTheMarkerAndRenders : Obligations.PixPlacesTheMarkerAndRenders := by
  intro s hp x y
  have hx : px s.cfg s.sx.toNat = x := px_sample hp s.sx
  have hy : py s.cfg s.sy.toNat = y := py_sample hp s.sy
  obtain ⟨hpixX, hpixY⟩ := toNat_pix_renderAt hp s.sx.toNat s.sy.toNat
  rw [hx, hy] at hpixX hpixY
  refine ⟨(decode_eq_instr_iff_masked (op := .pix) nofun _).2 rfl, recordsReservedBits_of_opcode .pix, ?_⟩
  exact ⟨renderAt x y s, by rw [exec_pix, hx, hy], hpixX, hpixY, by simp, rfl⟩

/-- Settles O42: each coordinate is at most the drawable size, and the marker makes up the rest of the display. -/
theorem markerLiesInsideTheDisplay : Obligations.MarkerLiesInsideTheDisplay := by
  intro s t i j hp hexec hi hj
  obtain rfl := Host.Outcome.next.inj ((exec_pix s).symm.trans hexec)
  obtain ⟨hpixX, hpixY⟩ := toNat_pix_renderAt hp s.sx.toNat s.sy.toNat
  rw [hpixX, hpixY]
  constructor
  · have hx : px s.cfg s.sx.toNat ≤ s.cfg.dispW - s.cfg.marker := px_le ..
    have hw : s.cfg.marker ≤ s.cfg.dispW := hp.marker_le_dispW
    omega
  · have hy : py s.cfg s.sy.toNat ≤ s.cfg.dispH - s.cfg.marker := py_le ..
    have hh : s.cfg.marker ≤ s.cfg.dispH := hp.marker_le_dispH
    omega

end Sys2Proof.Machine
end

section
/-! SUPPORT. RST (70_reset_and_hazards.md R127): what each element holds after it, whatever it held before, and from that the
statement about the step that takes an RST turn. -/

namespace Sys2Proof.Machine

section resetElementsFields

variable (s : State)

@[simp] theorem resetElements_offX : (resetElements s).offX = 0#16 := rfl
@[simp] theorem resetElements_offY : (resetElements s).offY = 0#16 := rfl
@[simp] theorem resetElements_calDone : (resetElements s).calDone = 0b00#2 := rfl
@[simp] theorem resetElements_sx : (resetElements s).sx = 0#12 := rfl
@[simp] theorem resetElements_sy : (resetElements s).sy = 0#12 := rfl
@[simp] theorem resetElements_lastEv : (resetElements s).lastEv = 0#32 := rfl
@[simp] theorem resetElements_ledMode : (resetElements s).ledMode = 0#2 := rfl
@[simp] theorem resetElements_borderD : (resetElements s).borderD = false := rfl
@[simp] theorem resetElements_ledPin : (resetElements s).ledPin = false := rfl
@[simp] theorem resetElements_prevLvl : (resetElements s).prevLvl = 0b111#3 := rfl
@[simp] theorem resetElements_pwmR : (resetElements s).pwmR = 0#16 := rfl
@[simp] theorem resetElements_pwmB : (resetElements s).pwmB = 0#16 := rfl
@[simp] theorem resetElements_pixX : (resetElements s).pixX = 0#8 := rfl
@[simp] theorem resetElements_pixY : (resetElements s).pixY = 0#8 := rfl
@[simp] theorem resetElements_fault : (resetElements s).fault = false := rfl
@[simp] theorem resetElements_fcause : (resetElements s).fcause = 0#4 := rfl
@[simp] theorem resetElements_halted : (resetElements s).halted = false := rfl
@[simp] theorem resetElements_evlog : (resetElements s).evlog = [] := rfl

end resetElementsFields

/-- Settles O14: the step of an RST turn is `resetElements` (`step_rst`), whose eighteen elements are the Reset column. -/
theorem rstSetsEveryElement : Obligations.RstSetsEveryElement := by
  intro s rest ht
  refine ⟨resetElements (nextTurn s.host.nowMs rest s), step_rst ht, ?_⟩
  simp

end Sys2Proof.Machine
end

section
/-! SUPPORT. The two round trips between words and commands (30_encoding.md R57, R62, R66) and the decoder's checks in the field
slices of R58: a word is its match with its operand field, and the reserved bits of a format are one slice of the word. -/

namespace Sys2Proof

open Laws.EncodeSelectsRow (opcodeOf)

/-! ### Decode after encode -/

/-- The operand field of a command's word reads back as the command's operand (30_encoding.md R59 to R61). -/
theorem instr_encode (i : Instr) : (opcodeOf i).instr (encode i) = i := by
  cases i with
  | calx raw => exact congrArg Instr.calx (extract_operand Opcode.calx.matchWord raw (by decide) (by decide))
  | caly raw => exact congrArg Instr.caly (extract_operand Opcode.caly.matchWord raw (by decide) (by decide))
  | sampx raw => exact congrArg Instr.sampx (extract_operand Opcode.sampx.matchWord raw (by decide) (by decide))
  | sampy raw => exact congrArg Instr.sampy (extract_operand Opcode.sampy.matchWord raw (by decide) (by decide))
  | edge pin => exact congrArg Instr.edge (extract_operand Opcode.edge.matchWord pin (by decide) (by decide))
  | levels lvl => exact congrArg Instr.levels (extract_operand Opcode.levels.matchWord lvl (by decide) (by decide))
  | map => rfl
  | pix => rfl

/-- The word of a command lies in the command's row (30_encoding.md R62). -/
theorem encode_and_mask (i : Instr) : encode i &&& (opcodeOf i).format.mask = (opcodeOf i).matchWord := by
  cases i with
  | calx raw => exact Laws.EncodeSelectsRow.calx raw
  | caly raw => exact Laws.EncodeSelectsRow.caly raw
  | sampx raw => exact Laws.EncodeSelectsRow.sampx raw
  | sampy raw => exact Laws.EncodeSelectsRow.sampy raw
  | edge pin => exact Laws.EncodeSelectsRow.edge pin
  | levels lvl => exact Laws.EncodeSelectsRow.levels lvl
  | map => exact Laws.EncodeSelectsRow.map
  | pix => exact Laws.EncodeSelectsRow.pix

/-- A command is well formed when EDGE's pin, which is the pin field of its word, is not the reserved one. -/
theorem wellFormed_instr_iff (op : Opcode) (w : Word) :
    WellFormed (op.instr w) ↔ ¬(op = .edge ∧ pinField w = 0b11#2) := by
  cases op <;> simp [WellFormed, Instr.wellFormed, Opcode.instr]

/-- A row selects the word of a well-formed command. -/
theorem selects_encode {i : Instr} (hi : WellFormed i) : (opcodeOf i).Selects (encode i) :=
  ⟨encode_and_mask i, (wellFormed_instr_iff _ _).1 (by rwa [instr_encode])⟩

theorem decode_encode {i : Instr} (hi : WellFormed i) : decode (encode i) = .ok i :=
  (decode_eq_ok_iff _ i).2 ⟨_, selects_encode hi, instr_encode i⟩

/-! ### Encode after decode -/

/-- A word that agrees with its match above an operand field is the match with the field put back. -/
theorem or_extract_operand {n : Nat} {w m k : Word} (hw : w &&& k = m) (hk : ∀ j < 32, k.getLsbD j = decide (n ≤ j)) :
    m ||| (w.extractLsb' 0 n).setWidth 32 = w := by
  subst hw
  refine BitVec.eq_of_getLsbD_eq fun j hj => ?_
  simp only [BitVec.getLsbD_or, BitVec.getLsbD_and, BitVec.getLsbD_setWidth, BitVec.getLsbD_extractLsb', hk j hj, hj]
  by_cases hn : n ≤ j
  · simp [hn]
  · simp [Nat.lt_of_not_le hn]

/-- The word of the command a row reads from a selected word is that word. -/
theorem encode_instr {op : Opcode} {w : Word} (hw : w &&& op.format.mask = op.matchWord) : encode (op.instr w) = w := by
  cases op with
  | calx => exact or_extract_operand hw (by decide)
  | caly => exact or_extract_operand hw (by decide)
  | sampx => exact or_extract_operand hw (by decide)
  | sampy => exact or_extract_operand hw (by decide)
  | edge => exact or_extract_operand hw (by decide)
  | levels => exact or_extract_operand hw (by decide)
  | map => exact hw.symm.trans BitVec.and_allOnes
  | pix => exact hw.symm.trans BitVec.and_allOnes

/-! ### The checks as field slices -/

/-- Masking with a run of 1 bits leaves 0 exactly when the slice under the run is 0. -/
theorem and_eq_zero_iff_extract {w m : Word} {lo k : Nat}
    (hm : ∀ j < 32, m.getLsbD j = decide (lo ≤ j ∧ j < lo + k)) (hk : lo + k ≤ 32) :
    w &&& m = 0#32 ↔ w.extractLsb' lo k = 0#k := by
  refine ⟨fun h => BitVec.eq_of_getLsbD_eq fun j hj => ?slice, fun h => BitVec.eq_of_getLsbD_eq fun j hj => ?mask⟩
  case slice =>
    have hbit := congrArg (·.getLsbD (lo + j)) h
    simpa [hm (lo + j) (by omega), hj] using hbit
  case mask =>
    by_cases hin : lo ≤ j ∧ j < lo + k
    · have hbit := congrArg (·.getLsbD (j - lo)) h
      simpa [hm j hj, hin, show j - lo < k by omega] using hbit
    · simp [hm j hj, hin]

/-- The number in the OP column (30_encoding.md R62). -/
def Opcode.code : Opcode → Nat
  | .calx => 1
  | .caly => 2
  | .sampx => 3
  | .sampy => 4
  | .edge => 5
  | .levels => 6
  | .map => 7
  | .pix => 8

/-- A reserved bit of opcode number `n` is set, the reserved bits as slices of the word (30_encoding.md R58). -/
def ReservedSet (n : Nat) (w : Word) : Prop :=
  if n ≤ 4 then w.extractLsb' 12 16 ≠ 0#16
  else if n = 5 then w.extractLsb' 2 26 ≠ 0#26
  else if n = 6 then w.extractLsb' 3 25 ≠ 0#25
  else w.extractLsb' 0 28 ≠ 0#28

/-- The slices of R58 are the masks of R62. -/
theorem reservedSet_code_iff (op : Opcode) (w : Word) :
    ReservedSet op.code w ↔ w &&& op.format.reserved ≠ 0#32 := by
  cases op <;> exact (and_eq_zero_iff_extract (by decide) (by decide)).not.symm

theorem ofBits_eq_some_iff_toNat (b : BitVec 4) (op : Opcode) : Opcode.ofBits b = some op ↔ b.toNat = op.code := by
  revert b
  cases op <;> decide

theorem ofBits_eq_none_iff_toNat (b : BitVec 4) : Opcode.ofBits b = none ↔ b.toNat = 0 ∨ 9 ≤ b.toNat := by
  revert b
  decide

section Checks

variable {w : Word}

theorem decode_of_illegal_number (h : (opField w).toNat = 0 ∨ 9 ≤ (opField w).toNat) :
    decode w = .error .illegalOpcode :=
  (decode_eq_illegalOpcode_iff w).2 ((ofBits_eq_none_iff_toNat _).2 h)

theorem decode_of_reservedSet (h1 : 1 ≤ (opField w).toNat) (h8 : (opField w).toNat ≤ 8)
    (hr : ReservedSet (opField w).toNat w) : decode w = .error .reservedBits := by
  cases ho : Opcode.ofBits (opField w) with
  | none =>
    have := (ofBits_eq_none_iff_toNat _).1 ho
    omega
  | some op =>
    rw [(ofBits_eq_some_iff_toNat _ op).1 ho] at hr
    exact decode_of_reserved ho ((reservedSet_code_iff op w).1 hr)

theorem decode_of_number (op : Opcode) (h : (opField w).toNat = op.code) (hr : ¬ReservedSet (opField w).toNat w)
    (hpin : ¬(op = .edge ∧ pinField w = 0b11#2)) : decode w = .ok (op.instr w) := by
  rw [h, reservedSet_code_iff, not_not] at hr
  exact decode_of_legal ((ofBits_eq_some_iff_toNat _ op).2 h) hr hpin

theorem decode_of_reserved_pin (h : (opField w).toNat = Opcode.edge.code) (hr : ¬ReservedSet (opField w).toNat w)
    (hpin : pinField w = 0b11#2) : decode w = .error .reservedPin := by
  have ho := (ofBits_eq_some_iff_toNat _ .edge).2 h
  rw [h, reservedSet_code_iff .edge, not_not] at hr
  simp [decode, ho, hr, hpin]

end Checks

end Sys2Proof

namespace Sys2Proof.Machine

/-- Settles O1: the row of the command selects its word, and the operand reads back. -/
theorem decodeOfEncodeIsTheCommand : Obligations.DecodeOfEncodeIsTheCommand := fun _ => decode_encode

/-- Settles O2: a decoded word is selected by one row, whose match and operand field make up the word. -/
theorem acceptedWordIsEncodeOfItsCommand : Obligations.AcceptedWordIsEncodeOfItsCommand := by
  intro w i h
  obtain ⟨op, ⟨hmask, hpin⟩, rfl⟩ := (decode_eq_ok_iff w i).1 h
  exact ⟨(wellFormed_instr_iff op w).2 hpin, encode_instr hmask⟩

/-- Settles O3: decode check by check in R64's order, each opcode's command by `decode_of_number`, then what performing the word
records. -/
theorem decodeFollowsItsFixedOrder : Obligations.DecodeFollowsItsFixedOrder := by
  intro w op reserved
  refine ⟨decode_of_illegal_number, decode_of_reservedSet, decode_of_reserved_pin,
    fun h hr => decode_of_number .calx h hr nofun, fun h hr => decode_of_number .caly h hr nofun,
    fun h hr => decode_of_number .sampx h hr nofun, fun h hr => decode_of_number .sampy h hr nofun,
    fun h hr hpin => decode_of_number .edge h hr fun hbad => hpin hbad.2,
    fun h hr => decode_of_number .levels h hr nofun, fun h hr => decode_of_number .map h hr nofun,
    fun h hr => decode_of_number .pix h hr nofun, fun s => ?performed⟩
  case performed =>
    exact ⟨fun h => performWord_error h s, fun h => performWord_error h s, fun h => performWord_error h s,
      fun i h => performWord_ok h s, fun agent now rest hh ht => step_halted ht hh⟩

end Sys2Proof.Machine
end

section
/-! SUPPORT. What a command and a step without RST can do to the elements, said once as the relation `Effect`, and what the turn
does to the host side, said once as `HostAdvances`; every invariant is then a case analysis of one or the other. -/

namespace Sys2Proof.Machine

/-- The updates a command can make from `s` (30_encoding.md R62, column Semantics; 60_exceptions.md R113). -/
inductive Effect (s : State) : State → Prop
  /-- Nothing: a held sample, an ignored edge, no command. -/
  | held : Effect s s
  /-- A fault is recorded. -/
  | faulted (code : FaultCode) : Effect s (raiseFault code s)
  /-- The first capture of an offset. -/
  | captured (ax : Axis) (raw : Raw) (h : isCalibrated s.calDone ax = false) :
    Effect s (setCalDone (setCalibrated s.calDone ax) (setOffset ax (BitVec.ofInt 16 (offsetFor s.cfg raw)) s))
  /-- An accepted X sample. -/
  | sampledX (v : Sample) : Effect s { s with sx := v }
  /-- A Y sample. -/
  | sampledY (raw : Raw) : Effect s (clampSample raw s)
  /-- Levels stored, no edge accepted. -/
  | stored (lvl : Levels) : Effect s (setPrevLvl lvl s)
  /-- An edge accepted past the window, with the levels LEVELS stored before it. -/
  | accepted (p : Input) (lvl : Levels) (h : s.cfg.debounceMs < elapsed s) :
    Effect s (dispatch p { setPrevLvl lvl s with lastEv := s.host.nowMs })
  /-- MAP: both duties and their events. -/
  | mapped (r b : Nat) (h : mappedDuties s = (r, b)) :
    Effect s { s with
      pwmR := BitVec.ofNat 16 r, pwmB := BitVec.ofNat 16 b, evlog := s.evlog ++ [.setDuty .r r, .setDuty .b b] }
  /-- PIX: the coordinate and the render's events. -/
  | rendered (x y : Nat) (hx : px s.cfg s.sx.toNat = x) (hy : py s.cfg s.sy.toNat = y) :
    Effect s { s with
      pixX := BitVec.ofNat 8 x, pixY := BitVec.ofNat 8 y
      evlog := s.evlog ++ [.clear, .border s.borderD, .rect x y s.cfg.marker s.cfg.marker true, .flush] }

theorem effect_captureOffset (ax : Axis) (raw : Raw) (s : State) : Effect s (captureOffset ax raw s) := by
  obtain ⟨-, h⟩ | ⟨hc, h⟩ := captureOffset_cases ax raw s
  · rw [h]
    exact .faulted .recalibration
  · rw [h]
    exact .captured ax raw hc

theorem effect_holdSample (raw : Raw) (s : State) : Effect s (holdSample raw s) := by
  obtain ⟨-, h⟩ | ⟨-, h⟩ := holdSample_cases raw s
  · rw [h]
    exact .sampledX _
  · rw [h]
    exact .held

/-- One edge, presented with any levels stored: ignored or accepted (41_debounce.md R88, R89). -/
theorem effect_presentEdge_setPrevLvl (p : Input) (lvl : Levels) (s : State) :
    Effect s (presentEdge p (setPrevLvl lvl s)) := by
  obtain ⟨-, h⟩ | ⟨hpast, h⟩ := presentEdge_cases p (setPrevLvl lvl s)
  · rw [h]
    exact .stored lvl
  · rw [h]
    exact .accepted p lvl hpast

theorem effect_applyDuties {rb : Nat × Nat} {s : State} (h : mappedDuties s = rb) : Effect s (applyDuties rb s) := by
  have hflat : applyDuties rb s = { s with
      pwmR := BitVec.ofNat 16 rb.1, pwmB := BitVec.ofNat 16 rb.2
      evlog := s.evlog ++ [.setDuty .r rb.1, .setDuty .b rb.2] } := by simp [applyDuties, emit]
  rw [hflat]
  exact .mapped rb.1 rb.2 h

theorem effect_renderAt {x y : Nat} {s : State} (hx : px s.cfg s.sx.toNat = x) (hy : py s.cfg s.sy.toNat = y) :
    Effect s (renderAt x y s) := by
  have hflat : renderAt x y s = { s with
      pixX := BitVec.ofNat 8 x, pixY := BitVec.ofNat 8 y
      evlog := s.evlog ++ [.clear, .border s.borderD, .rect x y s.cfg.marker s.cfg.marker true, .flush] } := by
    simp [renderAt, emit]
  rw [hflat]
  exact .rendered x y hx hy

/-- Every command answers one of the effects. -/
theorem exec_effect (i : Instr) (s : State) : ∃ t, exec i s = .next t ∧ Effect s t := by
  cases i with
  | calx raw => exact ⟨_, exec_calx s raw, effect_captureOffset .x raw s⟩
  | caly raw => exact ⟨_, exec_caly s raw, effect_captureOffset .y raw s⟩
  | sampx raw => exact ⟨_, exec_sampx s raw, effect_holdSample raw s⟩
  | sampy raw => exact ⟨_, exec_sampy s raw, .sampledY raw⟩
  | edge pin =>
    obtain ⟨-, h⟩ | ⟨p, -, -, h⟩ := exec_edge_cases s pin
    · exact ⟨_, h, .faulted .reservedPin⟩
    · exact ⟨_, h, effect_presentEdge_setPrevLvl p s.prevLvl s⟩
  | levels lvl =>
    obtain h | ⟨p, h⟩ := exec_levels_cases lvl s
    · exact ⟨_, h, .stored lvl⟩
    · exact ⟨_, h, effect_presentEdge_setPrevLvl p lvl s⟩
  | map => exact ⟨_, exec_map s, effect_applyDuties rfl⟩
  | pix => exact ⟨_, exec_pix s, effect_renderAt rfl rfl⟩

theorem performWord_completes (w : Word) (s : State) : ∃ t, performWord w s = .next t := by
  cases hd : decode w with
  | error e => exact ⟨_, performWord_error hd s⟩
  | ok i =>
    obtain ⟨t, hexec, -⟩ := exec_effect i s
    exact ⟨t, (performWord_ok hd s).trans hexec⟩

/-! ### One turn without RST -/

/-- What a turn other than RST leaves of the host side: no turn left, a turn with nothing performed, or one agent's oldest word
taken (20_memory.md R45; 60_exceptions.md R121, R126). -/
inductive HostAdvances (p : HostPort) : HostPort → Prop
  | idle (h : p.turns = []) : HostAdvances p p
  | passed {agent now rest} (h : p.turns = .perform agent now :: rest) :
    HostAdvances p ⟨now, p.tickCmds, p.edgeCmds, rest⟩
  | tookTick {now rest w ws} (h : p.turns = .perform .tick now :: rest) (hw : p.tickCmds = w :: ws) :
    HostAdvances p ⟨now, ws, p.edgeCmds, rest⟩
  | tookEdge {now rest w ws} (h : p.turns = .perform .edge now :: rest) (hw : p.edgeCmds = w :: ws) :
    HostAdvances p ⟨now, p.tickCmds, ws, rest⟩

/-- The state in which an agent's oldest word is performed. -/
theorem exists_hostAdvances_setOffered {s : State} {agent : Agent} {now : Time} {rest : List Turn} {w : Word}
    {ws : List Word} (ht : s.host.turns = .perform agent now :: rest) (ho : offered s agent = w :: ws) :
    ∃ h, HostAdvances s.host h ∧ setOffered agent ws (nextTurn now rest s) = { s with host := h } := by
  cases agent with
  | tick => exact ⟨_, .tookTick ht ho, rfl⟩
  | edge => exact ⟨_, .tookEdge ht ho, rfl⟩

/-- Everything a step can do: RST, or one effect on the state with the host side advanced. -/
theorem step_effect (s : State) :
    (∃ rest, s.host.turns = .rst :: rest ∧ step s = .next (resetElements (nextTurn s.host.nowMs rest s))) ∨
    (s.host.turns.head? ≠ some .rst ∧
      ∃ h t, step s = .next t ∧ HostAdvances s.host h ∧ Effect { s with host := h } t) := by
  obtain ⟨ht, hs⟩ | h | ⟨agent, now, rest, ht, -, hs⟩ | ⟨agent, now, rest, w, ws, e, ht, -, ho, -, hs⟩ |
    ⟨agent, now, rest, w, ws, i, ht, -, ho, -, hs⟩ := step_cases s
  · exact .inr ⟨by simp [ht], _, _, hs, .idle ht, .held⟩
  · exact .inl h
  · exact .inr ⟨by simp [ht], _, _, hs, .passed ht, .held⟩
  · obtain ⟨h, hadv, heq⟩ := exists_hostAdvances_setOffered ht ho
    rw [heq] at hs
    exact .inr ⟨by simp [ht], h, _, hs, hadv, .faulted (illegalCode e)⟩
  · obtain ⟨h, hadv, heq⟩ := exists_hostAdvances_setOffered ht ho
    obtain ⟨t, hexec, heff⟩ := exec_effect i { s with host := h }
    rw [heq] at hs
    exact .inr ⟨by simp [ht], h, t, hs.trans hexec, hadv, heff⟩

/-- An invariant of the elements and the parameters that RST establishes and every effect keeps is an invariant of the step. -/
theorem step_keeps {P : State → Prop} (hhost : ∀ s h, P s → P { s with host := h })
    (hrst : ∀ s, P s → P (resetElements s)) (heffect : ∀ s t, P s → Effect s t → P t) {s t : State} (hs : P s)
    (hstep : step s = .next t) : P t := by
  obtain ⟨rest, -, h⟩ | ⟨-, h, u, hu, -, heff⟩ := step_effect s
  · obtain rfl := Host.Outcome.next.inj (h.symm.trans hstep)
    exact hrst _ (hhost s _ hs)
  · obtain rfl := Host.Outcome.next.inj (hu.symm.trans hstep)
    exact heffect _ _ (hhost s h hs) heff

/-- A step without RST, inverted. -/
theorem effect_of_step {s t : State} (hstep : step s = .next t) (hrst : s.host.turns.head? ≠ some .rst) :
    ∃ h, HostAdvances s.host h ∧ Effect { s with host := h } t := by
  obtain ⟨rest, ht, -⟩ | ⟨-, h, u, hu, hadv, heff⟩ := step_effect s
  · simp [ht] at hrst
  · obtain rfl := Host.Outcome.next.inj (hu.symm.trans hstep)
    exact ⟨h, hadv, heff⟩

end Sys2Proof.Machine
end

section
/-! SUPPORT. The invariants of every step: the parameters, the ranges of the registers (10_state.md R19, R28, R29), the fault record
(60_exceptions.md R114), and the log that tells the outputs (10_state.md R32, R34), each by the effects a command can have. -/

namespace Sys2Proof.Machine

section Effects

variable {s t : State}

theorem Effect.host (h : Effect s t) : t.host = s.host := by
  cases h with
  | captured ax => cases ax <;> rfl
  | accepted p => exact dispatch_host p _
  | _ => rfl

theorem Effect.cfg (h : Effect s t) : t.cfg = s.cfg := by
  cases h with
  | captured ax => cases ax <;> rfl
  | accepted p => exact dispatch_cfg p _
  | _ => rfl

/-- The fault record is left alone, or a fault is raised on it (60_exceptions.md R113). -/
theorem Effect.fault_cases (h : Effect s t) :
    (t.fault = s.fault ∧ t.fcause = s.fcause) ∨
    ∃ code, t.fault = true ∧ t.fcause = firstCause s.fault s.fcause code := by
  cases h with
  | faulted code => exact .inr ⟨code, rfl, rfl⟩
  | captured ax => cases ax <;> exact .inl ⟨rfl, rfl⟩
  | accepted p => cases p <;> exact .inl ⟨rfl, rfl⟩
  | _ => exact .inl ⟨rfl, rfl⟩

end Effects

/-- Settles O13: neither RST nor an effect writes `cfg`. -/
theorem stepKeepsTheParameters : Obligations.StepKeepsTheParameters := fun s _ hstep =>
  step_keeps (P := fun t => t.cfg = s.cfg) (fun _ _ h => h) (fun _ h => h) (fun _ _ h heff => heff.cfg.trans h) rfl hstep

/-! ### The registers -/

theorem registersBounded_resetElements {s : State} (hp : s.cfg.Legal) : RegistersBounded (resetElements s) where
  legal := hp
  offX_low := by have := hp.calMid_le; have := hp.adcMax_eq; simp; omega
  offX_high := by simp
  offY_low := by have := hp.calMid_le; have := hp.adcMax_eq; simp; omega
  offY_high := by simp
  offX_uncalibrated _ := rfl
  offY_uncalibrated _ := rfl
  pwmR_le := Nat.zero_le _
  pwmB_le := Nat.zero_le _
  pixX_le := by simpa using hp.marker_le_dispW
  pixY_le := by simpa using hp.marker_le_dispH

/-- A captured offset lies in the range of 10_state.md R19. -/
theorem captured_offset_bounds {p : Params} (hp : p.Legal) (raw : Raw) :
    (p.calMid : Int) - 4095 ≤ (BitVec.ofInt 16 (offsetFor p raw)).toInt ∧
      (BitVec.ofInt 16 (offsetFor p raw)).toInt ≤ p.calMid := by
  rw [toInt_offsetFor hp raw]
  exact offsetFor_bounds p raw

theorem mapped_le {s : State} {r b : Nat} (h : mappedDuties s = (r, b)) : r ≤ s.cfg.pwmPeriod ∧ b ≤ s.cfg.pwmPeriod := by
  have hle := mappedDuties_le s
  rwa [h] at hle

/-- A column fits its register, and the marker fits beside it (43_pixel.md R108, R109). -/
theorem placed_px {p : Params} (hp : p.Legal) {n x : Nat} (hx : px p n = x) :
    (BitVec.ofNat 8 x).toNat = x ∧ x + p.marker ≤ p.dispW := by
  have hle : px p n ≤ p.dispW - p.marker := px_le p n
  have hmarker := hp.marker_le_dispW
  have hdisp := hp.dispW_le
  exact ⟨by rw [BitVec.toNat_ofNat, Nat.mod_eq_of_lt (by omega)], by omega⟩

/-- A row fits its register, and the marker fits below it (43_pixel.md R108, R109). -/
theorem placed_py {p : Params} (hp : p.Legal) {n y : Nat} (hy : py p n = y) :
    (BitVec.ofNat 8 y).toNat = y ∧ y + p.marker ≤ p.dispH := by
  have hle : py p n ≤ p.dispH - p.marker := py_le p n
  have hmarker := hp.marker_le_dispH
  have hdisp := hp.dispH_le
  exact ⟨by rw [BitVec.toNat_ofNat, Nat.mod_eq_of_lt (by omega)], by omega⟩

theorem Effect.registersBounded {s t : State} (h : Effect s t) (hs : RegistersBounded s) : RegistersBounded t := by
  cases h with
  | held => exact hs
  | faulted code => exact { hs with }
  | captured ax raw =>
    obtain ⟨hlow, hhigh⟩ := captured_offset_bounds hs.legal raw
    cases ax with
    | x =>
      obtain ⟨hset, hother⟩ := setCalibrated_x s.calDone
      exact { hs with
        offX_low := hlow
        offX_high := hhigh
        offX_uncalibrated := fun h => Bool.noConfusion (hset.symm.trans h)
        offY_uncalibrated := fun h => hs.offY_uncalibrated (hother.symm.trans h) }
    | y =>
      obtain ⟨hset, hother⟩ := setCalibrated_y s.calDone
      exact { hs with
        offY_low := hlow
        offY_high := hhigh
        offX_uncalibrated := fun h => hs.offX_uncalibrated (hother.symm.trans h)
        offY_uncalibrated := fun h => Bool.noConfusion (hset.symm.trans h) }
  | sampledX v => exact { hs with }
  | sampledY raw => exact { hs with }
  | stored lvl => exact { hs with }
  | accepted p lvl => cases p <;> exact { hs with }
  | mapped r b h =>
    obtain ⟨hr, hb⟩ := mapped_le h
    exact { hs with
      pwmR_le := (toNat_ofNat_duty hs.legal hr).trans_le hr
      pwmB_le := (toNat_ofNat_duty hs.legal hb).trans_le hb }
  | rendered x y hx hy =>
    obtain ⟨hpixX, hw⟩ := placed_px hs.legal hx
    obtain ⟨hpixY, hh⟩ := placed_py hs.legal hy
    rw [← hpixX] at hw
    rw [← hpixY] at hh
    exact { hs with pixX_le := hw, pixY_le := hh }

/-- Settles O46: RST leaves the reset values, and each effect writes values in range. -/
theorem stepKeepsRegistersBounded : Obligations.StepKeepsRegistersBounded := fun _ _ hs hstep =>
  step_keeps (fun _ _ h => { h with }) (fun _ h => registersBounded_resetElements h.legal)
    (fun _ _ h heff => heff.registersBounded h) hs hstep

/-! ### The fault record -/

theorem faultRecordSound_resetElements (s : State) : FaultRecordSound (resetElements s) where
  cause_iff := by simp
  cause_le := by simp

theorem bits_ne_zero (code : FaultCode) : code.bits ≠ 0#4 := by cases code <;> decide

theorem bits_le (code : FaultCode) : code.bits.toNat ≤ 4 := by cases code <;> decide

theorem Effect.faultRecordSound {s t : State} (h : Effect s t) (hs : FaultRecordSound s) : FaultRecordSound t := by
  obtain ⟨hf, hc⟩ | ⟨code, hf, hc⟩ := h.fault_cases
  · exact ⟨by rw [hf, hc]; exact hs.cause_iff, by rw [hc]; exact hs.cause_le⟩
  · cases hfault : s.fault with
    | true =>
      rw [hfault, firstCause, if_pos rfl] at hc
      exact ⟨by simpa [hf, hc] using hs.cause_iff.1 hfault, by rw [hc]; exact hs.cause_le⟩
    | false =>
      rw [hfault, firstCause, if_neg Bool.false_ne_true] at hc
      exact ⟨by simpa [hf, hc] using bits_ne_zero code, by rw [hc]; exact bits_le code⟩

/-- Settles O47: a raised fault keeps the first cause or writes one of the four codes, and nothing else writes the record. -/
theorem stepKeepsFaultRecordSound : Obligations.StepKeepsFaultRecordSound := fun _ _ hs hstep =>
  step_keeps (fun _ _ h => { h with }) (fun s _ => faultRecordSound_resetElements s)
    (fun _ _ h heff => heff.faultRecordSound h) hs hstep

/-! ### The log -/

theorem logTellsOutputs_resetElements {s : State} (hp : s.cfg.Legal) : LogTellsOutputs (resetElements s) where
  legal := hp
  in_range := by simp
  replayed := rfl

/-- Appended events keep the log in range and telling the outputs, if each is in range and hearing them leads from the old
outputs to the new ones. -/
theorem logTellsOutputs_of_append {s t : State} (group : List Event) (hs : LogTellsOutputs s) (hcfg : t.cfg = s.cfg)
    (hlog : t.evlog = s.evlog ++ group) (hrange : ∀ e ∈ group, EventInRange s.cfg e)
    (hheard : group.foldl Heard.hear (heardNow s) = heardNow t) : LogTellsOutputs t where
  legal := hcfg ▸ hs.legal
  in_range e he := by
    rw [hlog, List.mem_append] at he
    rw [hcfg]
    exact he.elim (hs.in_range e) (hrange e)
  replayed := by rw [hlog, replay, List.foldl_append, ← replay, hs.replayed, hheard]

theorem logTellsOutputs_dispatch {s : State} (hs : LogTellsOutputs s) (p : Input) : LogTellsOutputs (dispatch p s) := by
  cases p with
  | a => exact { hs with }
  | b => exact logTellsOutputs_of_append [.boot] hs rfl rfl (by simp [EventInRange]) rfl
  | c =>
    exact logTellsOutputs_of_append [.pin (!s.ledPin), .border (!s.borderD)] hs rfl (by rw [dispatch_c])
      (by simp [EventInRange]) rfl

theorem Effect.logTellsOutputs {s t : State} (h : Effect s t) (hs : LogTellsOutputs s) : LogTellsOutputs t := by
  cases h with
  | held => exact hs
  | faulted code => exact { hs with }
  | captured ax raw => cases ax <;> exact { hs with }
  | sampledX v => exact { hs with }
  | sampledY raw => exact { hs with }
  | stored lvl => exact { hs with }
  | accepted p lvl =>
    exact logTellsOutputs_dispatch (s := { setPrevLvl lvl s with lastEv := s.host.nowMs }) { hs with } p
  | mapped r b h =>
    obtain ⟨hr, hb⟩ := mapped_le h
    refine logTellsOutputs_of_append [.setDuty .r r, .setDuty .b b] hs rfl rfl (by simp [EventInRange, hr, hb]) ?_
    rw [heardNow, heardNow, toNat_ofNat_duty hs.legal hr, toNat_ofNat_duty hs.legal hb]
    rfl
  | rendered x y hx hy =>
    obtain ⟨hpixX, hw⟩ := placed_px hs.legal hx
    obtain ⟨hpixY, hh⟩ := placed_py hs.legal hy
    refine logTellsOutputs_of_append [.clear, .border s.borderD, .rect x y s.cfg.marker s.cfg.marker true, .flush] hs rfl
      rfl (by simp [EventInRange, hw, hh]) ?_
    rw [heardNow, heardNow, hpixX, hpixY]
    rfl

/-- Settles O48: RST starts a fresh log from the reset outputs, and each effect appends exactly the events of the outputs it
writes. -/
theorem stepKeepsLogTellingOutputs : Obligations.StepKeepsLogTellingOutputs := fun _ _ hs hstep =>
  step_keeps (fun _ _ h => { h with }) (fun _ h => logTellsOutputs_resetElements h.legal)
    (fun _ _ h heff => heff.logTellsOutputs h) hs hstep

/-- Settles O49: the state after reset is what RST leaves of it, and the default parameters are legal. -/
theorem resetMeetsTheInvariants : Obligations.ResetMeetsTheInvariants :=
  ⟨registersBounded_resetElements (s := State.reset) default_params_legal, faultRecordSound_resetElements State.reset,
    logTellsOutputs_resetElements (s := State.reset) default_params_legal⟩

/-! ### The events of one step -/

/-- Nothing, or the whole group of one command (20_memory.md R53; 10_state.md R32). -/
def IsEventGroup (group : List Event) : Prop :=
  group = [] ∨
    (∃ r b, group = [.setDuty .r r, .setDuty .b b]) ∨
    (∃ d x y m, group = [.clear, .border d, .rect x y m m true, .flush]) ∨
    (∃ v d, group = [.pin v, .border d]) ∨
    group = [.boot]

theorem dispatch_appends_group (p : Input) (s : State) :
    ∃ group, (dispatch p s).evlog = s.evlog ++ group ∧ IsEventGroup group := by
  cases p with
  | a => exact ⟨[], (List.append_nil _).symm, .inl rfl⟩
  | b => exact ⟨_, rfl, .inr (.inr (.inr (.inr rfl)))⟩
  | c => exact ⟨_, by rw [dispatch_c], .inr (.inr (.inr (.inl ⟨_, _, rfl⟩)))⟩

theorem Effect.appends_group {s t : State} (h : Effect s t) : ∃ group, t.evlog = s.evlog ++ group ∧ IsEventGroup group := by
  cases h with
  | captured ax raw => exact ⟨[], by simp, .inl rfl⟩
  | accepted p lvl => exact dispatch_appends_group p _
  | mapped r b => exact ⟨_, rfl, .inr (.inl ⟨r, b, rfl⟩)⟩
  | rendered x y => exact ⟨_, rfl, .inr (.inr (.inl ⟨s.borderD, x, y, s.cfg.marker, rfl⟩))⟩
  | _ => exact ⟨[], (List.append_nil _).symm, .inl rfl⟩

/-- Settles O12 by the group of the step's one effect. -/
theorem stepAppendsOneWholeEventGroup : Obligations.StepAppendsOneWholeEventGroup := by
  intro s t hstep hrst
  obtain ⟨_, -, heff⟩ := effect_of_step hstep hrst
  exact heff.appends_group

end Sys2Proof.Machine
end

section
/-! SUPPORT. What a command does not read: the fault record, and but for EDGE and LEVELS the host side (10_state.md R30, R33;
60_exceptions.md R113). Both are one fact, `exec_overlay`: a command makes the same next state under any record and any host side, and
raises the same fault on it. -/

namespace Sys2Proof.Machine

/-- The state with another fault record and another host side. -/
def overlay (f : Bool) (c : BitVec 4) (h : HostPort) (s : State) : State := { s with fault := f, fcause := c, host := h }

/-- The fault a command raises, if it raises one. -/
def raiseIf : Option FaultCode → State → State
  | none, s => s
  | some code, s => raiseFault code s

/-- The commands that read NOW_MS (10_state.md R33). -/
def UsesNow : Instr → Prop
  | .edge _ => True
  | .levels _ => True
  | _ => False

theorem not_usesNow {i : Instr} (hedge : ∀ pin, i ≠ .edge pin) (hlevels : ∀ lvl, i ≠ .levels lvl) : ¬UsesNow i := by
  cases i with
  | edge pin => exact absurd rfl (hedge pin)
  | levels lvl => exact absurd rfl (hlevels lvl)
  | _ => exact id

section Overlay

variable (s : State)

theorem captureOffset_overlay (ax : Axis) (raw : Raw) :
    ∃ t r, ∀ f c h, captureOffset ax raw (overlay f c h s) = raiseIf r (overlay f c h t) := by
  cases hc : isCalibrated s.calDone ax with
  | true => exact ⟨s, some .recalibration, fun _ _ _ => captureOffset_of_isCalibrated raw hc⟩
  | false =>
    refine ⟨captureOffset ax raw s, none, fun f c h => ?_⟩
    rw [captureOffset_of_not_isCalibrated raw hc, captureOffset_of_not_isCalibrated (s := overlay f c h s) raw hc]
    cases ax <;> rfl

theorem holdSample_overlay (raw : Raw) (f : Bool) (c : BitVec 4) (h : HostPort) :
    holdSample raw (overlay f c h s) = overlay f c h (holdSample raw s) := by
  obtain ⟨hin, heq⟩ | ⟨hout, heq⟩ := holdSample_cases raw s
  · rw [heq]
    exact if_pos hin
  · rw [heq]
    exact if_neg hout

theorem dispatch_overlay (p : Input) (f : Bool) (c : BitVec 4) (h : HostPort) :
    dispatch p (overlay f c h s) = overlay f c h (dispatch p s) := by
  cases p <;> rfl

/-- An edge reads NOW_MS, so its overlay keeps that level. -/
theorem presentEdge_overlay (p : Input) (f : Bool) (c : BitVec 4) {h : HostPort} (hnow : h.nowMs = s.host.nowMs) :
    presentEdge p (overlay f c h s) = overlay f c h (presentEdge p s) := by
  have helapsed : elapsed (overlay f c h s) = elapsed s := by simp only [elapsed, overlay, hnow]
  obtain ⟨hin, heq⟩ | ⟨hpast, heq⟩ := presentEdge_cases p s
  · rw [heq, presentEdge_of_elapsed_le (s := overlay f c h s) p (helapsed.trans_le hin)]
  · rw [heq, presentEdge_of_lt_elapsed (s := overlay f c h s) p (hpast.trans_eq helapsed.symm), ← dispatch_overlay]
    simp only [overlay, hnow]

end Overlay

/-- A command's next state and its fault do not depend on the fault record, nor on the host side but for NOW_MS where the command
uses it. -/
theorem exec_overlay (i : Instr) (s : State) :
    ∃ t r, ∀ f c h, (UsesNow i → h.nowMs = s.host.nowMs) →
      exec i (overlay f c h s) = .next (raiseIf r (overlay f c h t)) := by
  cases i with
  | calx raw =>
    obtain ⟨t, r, ht⟩ := captureOffset_overlay s .x raw
    exact ⟨t, r, fun f c h _ => congrArg Host.Outcome.next (ht f c h)⟩
  | caly raw =>
    obtain ⟨t, r, ht⟩ := captureOffset_overlay s .y raw
    exact ⟨t, r, fun f c h _ => congrArg Host.Outcome.next (ht f c h)⟩
  | sampx raw => exact ⟨_, none, fun f c h _ => congrArg Host.Outcome.next (holdSample_overlay s raw f c h)⟩
  | sampy raw => exact ⟨clampSample raw s, none, fun _ _ _ _ => rfl⟩
  | edge pin =>
    cases hp : inputOfPin pin with
    | none => exact ⟨s, some .reservedPin, fun f c h _ => by simp only [exec, execEdge, hp]; rfl⟩
    | some p =>
      refine ⟨presentEdge p s, none, fun f c h hnow => ?_⟩
      rw [exec_edge_of_inputOfPin _ hp, presentEdge_overlay s p f c (hnow trivial)]
      rfl
  | levels lvl =>
    cases hfall : gateOrder.find? (hasFall (fallingEdges s.prevLvl lvl)) with
    | none => exact ⟨setPrevLvl lvl s, none, fun f c h _ => by rw [exec_levels, overlay, hfall]; rfl⟩
    | some p =>
      refine ⟨presentEdge p (setPrevLvl lvl s), none, fun f c h hnow => ?_⟩
      rw [exec_levels, overlay, hfall]
      exact congrArg Host.Outcome.next (presentEdge_overlay (setPrevLvl lvl s) p f c (hnow trivial))
  | map => exact ⟨applyDuties (mappedDuties s) s, none, fun _ _ _ _ => rfl⟩
  | pix => exact ⟨renderAt (px s.cfg s.sx.toNat) (py s.cfg s.sy.toNat) s, none, fun _ _ _ _ => rfl⟩

/-! ### The host side -/

/-- A command that does not use NOW_MS has the same effect beside any host side. -/
theorem exec_withHost {i : Instr} {s t : State} (hi : ¬UsesNow i) (hexec : exec i s = .next t) (h : HostPort) :
    exec i { s with host := h } = .next { t with host := h } := by
  obtain ⟨u, r, hu⟩ := exec_overlay i s
  have hhere : exec i s = .next (raiseIf r (overlay s.fault s.fcause s.host u)) := hu _ _ _ (absurd · hi)
  have hthere : exec i { s with host := h } = .next (raiseIf r (overlay s.fault s.fcause h u)) := hu _ _ _ (absurd · hi)
  obtain rfl := Host.Outcome.next.inj (hhere.symm.trans hexec)
  rw [hthere]
  cases r <;> rfl

/-- Settles O11: another NOW_MS is another host side. -/
theorem onlyEdgeAndLevelsUseNow : Obligations.OnlyEdgeAndLevelsUseNow := by
  intro i s now hedge hlevels
  obtain ⟨t, hexec, heff⟩ := exec_effect i s
  refine ⟨t, hexec, ?_⟩
  rw [atTime, atTime, heff.host]
  exact exec_withHost (not_usesNow hedge hlevels) hexec _

/-- Settles O10: with the word taken from either queue the same state is left to perform it in; halted, neither word is taken. -/
theorem eitherAgentsCommandHasTheSameEffect : Obligations.EitherAgentsCommandHasTheSameEffect := by
  intro s w now
  obtain hh | hh := Bool.eq_false_or_eq_true s.halted
  · exact ⟨_, _, step_halted rfl hh, step_halted rfl hh, rfl⟩
  · have htick := step_offered (s := { s with host := ⟨s.host.nowMs, [w], [], [.perform .tick now]⟩ }) rfl hh rfl
    have hedge := step_offered (s := { s with host := ⟨s.host.nowMs, [], [w], [.perform .edge now]⟩ }) rfl hh rfl
    obtain ⟨t, ht⟩ := performWord_completes w { s with host := ⟨now, [], [], []⟩ }
    exact ⟨t, t, htick.trans ht, hedge.trans ht, rfl⟩

/-! ### The fault record -/

/-- The state with another fault record. -/
def withRecord (f : Bool) (c : BitVec 4) (s : State) : State := overlay f c s.host s

/-- Performing a word makes the same next state, and raises the same fault, under any fault record. -/
theorem performWord_withRecord (w : Word) (s : State) :
    ∃ t r, ∀ f c, performWord w (withRecord f c s) = .next (raiseIf r (withRecord f c t)) := by
  cases hd : decode w with
  | error e => exact ⟨s, some (illegalCode e), fun f c => performWord_error hd _⟩
  | ok i =>
    obtain ⟨t, r, ht⟩ := exec_overlay i s
    exact ⟨overlay s.fault s.fcause s.host t, r, fun f c => (performWord_ok hd _).trans (ht f c s.host fun _ => rfl)⟩

theorem raiseIf_withRecord (r : Option FaultCode) (f : Bool) (c : BitVec 4) (t : State) :
    ∃ f' c', raiseIf r (withRecord f c t) = withRecord f' c' t := by
  cases r <;> exact ⟨_, _, rfl⟩

theorem offered_withRecord (f : Bool) (c : BitVec 4) (s : State) (agent : Agent) :
    offered (withRecord f c s) agent = offered s agent := by cases agent <;> rfl

theorem setOffered_nextTurn_withRecord (f : Bool) (c : BitVec 4) (s : State) (agent : Agent) (ws : List Word) (now : Time)
    (rest : List Turn) :
    setOffered agent ws (nextTurn now rest (withRecord f c s)) =
      withRecord f c (setOffered agent ws (nextTurn now rest s)) := by cases agent <;> rfl

/-- A step makes the same next state under any fault record, but for the record. -/
theorem step_withRecord (s : State) :
    ∃ t, ∀ f c, ∃ f' c', step (withRecord f c s) = .next (withRecord f' c' t) := by
  cases ht : s.host.turns with
  | nil => exact ⟨s, fun f c => ⟨f, c, step_no_turn ht⟩⟩
  | cons turn rest =>
    cases turn with
    | rst => exact ⟨resetElements (nextTurn s.host.nowMs rest s), fun f c => ⟨_, _, step_rst ht⟩⟩
    | perform agent now =>
      cases hh : s.halted with
      | true => exact ⟨nextTurn now rest s, fun f c => ⟨f, c, step_halted ht hh⟩⟩
      | false =>
        cases ho : offered s agent with
        | nil =>
          exact ⟨nextTurn now rest s, fun f c =>
            ⟨f, c, step_nothing_offered ht ((offered_withRecord f c s agent).trans ho)⟩⟩
        | cons w ws =>
          obtain ⟨t, r, hperform⟩ := performWord_withRecord w (setOffered agent ws (nextTurn now rest s))
          refine ⟨t, fun f c => ?_⟩
          obtain ⟨f', c', hrecord⟩ := raiseIf_withRecord r f c t
          rw [step_offered (s := withRecord f c s) ht hh ((offered_withRecord f c s agent).trans ho),
            setOffered_nextTurn_withRecord, hperform f c, hrecord]
          exact ⟨f', c', rfl⟩

/-- A run makes the same end state under any fault record at its start, but for the record. -/
theorem run_withRecord (n : Nat) (s : State) :
    ∃ t, ∀ f c, ∃ f' c', run n (withRecord f c s) = .next (withRecord f' c' t) := by
  induction n generalizing s with
  | zero => exact ⟨s, fun f c => ⟨f, c, rfl⟩⟩
  | succ n ih =>
    obtain ⟨u, hstep⟩ := step_withRecord s
    obtain ⟨t, hrun⟩ := ih u
    refine ⟨t, fun f c => ?_⟩
    obtain ⟨f1, c1, hstep⟩ := hstep f c
    obtain ⟨f2, c2, hrun⟩ := hrun f1 c1
    exact ⟨f2, c2, (run_succ n hstep).trans hrun⟩

/-- Settles O19: the run's end state under any record, taken at the state's own record and at the other. -/
theorem faultHistoryNeverChangesARun : Obligations.FaultHistoryNeverChangesARun := by
  intro n s f c
  obtain ⟨t, hrun⟩ := run_withRecord n s
  obtain ⟨f1, c1, hown⟩ := hrun s.fault s.fcause
  obtain ⟨f2, c2, hother⟩ := hrun f c
  exact ⟨_, f2, c2, hown, hother⟩

theorem bits_cases (code : FaultCode) : code.bits = 1#4 ∨ code.bits = 2#4 ∨ code.bits = 3#4 ∨ code.bits = 4#4 := by
  cases code <;> decide

/-- Settles O18: without RST by the two things an effect does to the record, at RST by `step_rst`, the rest by `step_withRecord`. -/
theorem faultIsStickyAndKeepsTheFirstCause : Obligations.FaultIsStickyAndKeepsTheFirstCause := by
  intro s t hstep
  refine ⟨fun hrst => ?sticky, fun hrst => ?cleared, fun f c => ?unread⟩
  case sticky =>
    obtain ⟨h, -, heff⟩ := effect_of_step hstep hrst
    obtain ⟨hf, hc⟩ | ⟨code, hf, hc⟩ := heff.fault_cases
    · exact ⟨fun hs => ⟨hf.trans hs, hc⟩, fun hs ht => absurd (hf.symm.trans ht) (by simp [hs]), fun _ => hc⟩
    · refine ⟨fun hs => ⟨hf, hc.trans (if_pos hs)⟩, fun hs _ => ?_, fun ht => absurd (hf.symm.trans ht) (by decide)⟩
      rw [hc.trans (if_neg (by simp [hs]))]
      exact bits_cases code
  case cleared =>
    obtain ⟨rest, ht⟩ := List.head?_eq_some_iff.1 hrst
    obtain rfl := Host.Outcome.next.inj ((step_rst ht).symm.trans hstep)
    exact ⟨rfl, rfl⟩
  case unread =>
    obtain ⟨u, hu⟩ := step_withRecord s
    obtain ⟨f1, c1, hown⟩ := hu s.fault s.fcause
    obtain rfl := Host.Outcome.next.inj (hown.symm.trans hstep)
    exact hu f c

end Sys2Proof.Machine
end

section
/-! SUPPORT. Steps and runs over the schedule: what one turn performs (20_memory.md R45; 30_encoding.md R64), what RST leaves of the
host side, and what runs keep: the issue order, a captured offset, every element while HALTED is 1 (60_exceptions.md R121), and within
one debounce window all but one edge (41_debounce.md R91). -/

namespace Sys2Proof.Machine

/-! ### One step -/

/-- Settles O6: `step_offered` for either agent, whose queue alone loses its head. -/
theorem stepPerformsTheOfferedCommand : Obligations.StepPerformsTheOfferedCommand := fun _ _ _ _ _ _ hh hd =>
  ⟨fun ht ho => (step_offered (agent := .tick) ht hh ho).trans (performWord_ok hd _),
    fun ht ho => (step_offered (agent := .edge) ht hh ho).trans (performWord_ok hd _)⟩

/-- Settles O7: as O6, with the fault of the illegal word raised in place of a command. -/
theorem illegalWordOnlyRecordsItsFault : Obligations.IllegalWordOnlyRecordsItsFault := by
  intro s now rest w ws e hh hd code
  have hcode : (illegalCode e).bits = code := by cases e <;> rfl
  rw [← hcode]
  exact ⟨fun ht ho => (step_offered (agent := .tick) ht hh ho).trans (performWord_error hd _),
    fun ht ho => (step_offered (agent := .edge) ht hh ho).trans (performWord_error hd _)⟩

theorem step_completes (s : State) : ∃ t, step s = .next t := by
  obtain ⟨_, -, h⟩ | ⟨-, _, t, h, -⟩ := step_effect s
  · exact ⟨_, h⟩
  · exact ⟨t, h⟩

/-- Settles O8: every command and every step is one of the effects or RST, each a next state. -/
theorem everyCommandAndEveryStepCompletes : Obligations.EveryCommandAndEveryStepCompletes :=
  ⟨fun i s => (exec_effect i s).imp fun _ h => h.1, step_completes⟩

/-- Settles O15: `resetElements` keeps the parameters and the host side, from which only the turn was taken. -/
theorem rstLeavesTheInputsAlone : Obligations.RstLeavesTheInputsAlone := fun _ _ ht =>
  ⟨_, step_rst ht, resetElements_cfg _, resetElements_host _⟩

/-- Settles O16: each conjunct is a value of the Reset column. -/
theorem resetStateAndItsOutputs : Obligations.ResetStateAndItsOutputs := by
  unfold Obligations.ResetStateAndItsOutputs
  decide

/-- Settles O30: no input has pin 0b11, so the fault of `exec_edge_reserved` is all. -/
theorem edgeWithReservedPinRecordsCodeThree : Obligations.EdgeWithReservedPinRecordsCodeThree := exec_edge_reserved

/-! ### Runs without RST -/

theorem HostAdvances.turns {p q : HostPort} (h : HostAdvances p q) : q.turns = p.turns.tail := by
  cases h with
  | idle h => rw [h, List.tail_nil]
  | passed h => rw [h, List.tail_cons]
  | tookTick h => rw [h, List.tail_cons]
  | tookEdge h => rw [h, List.tail_cons]

/-- No RST among the next `n + 1` turns: neither the next one nor among the `n` after it. -/
theorem noReset_succ {n : Nat} {s : State} (hno : NoReset (n + 1) s) :
    s.host.turns.head? ≠ some .rst ∧ .rst ∉ s.host.turns.tail.take n := by
  cases ht : s.host.turns with
  | nil => simp
  | cons turn rest =>
    rw [NoReset, ht, List.take_succ_cons, List.mem_cons, not_or] at hno
    exact ⟨fun h => hno.1 (Option.some.inj h).symm, hno.2⟩

/-- A property that every step without RST keeps holds at the end of every run without RST. -/
theorem run_keeps {P : State → Prop}
    (hkeep : ∀ s t, P s → s.host.turns.head? ≠ some .rst → step s = .next t → P t) {n : Nat} {s t : State} (hs : P s)
    (hno : NoReset n s) (hrun : run n s = .next t) : P t := by
  induction n generalizing s with
  | zero =>
    obtain rfl := Host.Outcome.next.inj hrun
    exact hs
  | succ n ih =>
    obtain ⟨hhead, htail⟩ := noReset_succ hno
    obtain ⟨u, hstep⟩ := step_completes s
    obtain ⟨h, hadv, heff⟩ := effect_of_step hstep hhead
    rw [← hadv.turns, ← show u.host = h from heff.host] at htail
    exact ih (hkeep s u hs hhead hstep) htail ((run_succ n hstep).symm.trans hrun)

theorem run_completes (n : Nat) (s : State) : ∃ t, run n s = .next t := by
  induction n generalizing s with
  | zero => exact ⟨s, rfl⟩
  | succ n ih =>
    obtain ⟨u, hstep⟩ := step_completes s
    obtain ⟨t, hrun⟩ := ih u
    exact ⟨t, (run_succ n hstep).trans hrun⟩

/-! ### The issue order -/

/-- `q` offers what `p` does but for words from the front of each queue, at most `n` words in all. -/
def TakenInOrder (n : Nat) (p q : HostPort) : Prop :=
  ∃ j k, j + k ≤ n ∧ q.tickCmds = p.tickCmds.drop j ∧ q.edgeCmds = p.edgeCmds.drop k

theorem TakenInOrder.trans {m n : Nat} {p q r : HostPort} (hpq : TakenInOrder m p q) (hqr : TakenInOrder n q r) :
    TakenInOrder (m + n) p r := by
  obtain ⟨j, k, hm, htick, hedge⟩ := hpq
  obtain ⟨j', k', hn, htick', hedge'⟩ := hqr
  refine ⟨j + j', k + k', by omega, ?_, ?_⟩
  · rw [htick', htick, List.drop_drop]
  · rw [hedge', hedge, List.drop_drop]

theorem HostAdvances.takenInOrder {p q : HostPort} (h : HostAdvances p q) : TakenInOrder 1 p q := by
  cases h with
  | idle => exact ⟨0, 0, by omega, rfl, rfl⟩
  | passed => exact ⟨0, 0, by omega, rfl, rfl⟩
  | tookTick _ hw => exact ⟨1, 0, by omega, by rw [hw]; rfl, rfl⟩
  | tookEdge _ hw => exact ⟨0, 1, by omega, rfl, by rw [hw]; rfl⟩

theorem step_takenInOrder {s t : State} (hstep : step s = .next t) : TakenInOrder 1 s.host t.host := by
  obtain ⟨rest, -, h⟩ | ⟨-, h, u, hu, hadv, heff⟩ := step_effect s
  · obtain rfl := Host.Outcome.next.inj (h.symm.trans hstep)
    exact ⟨0, 0, by omega, rfl, rfl⟩
  · obtain rfl := Host.Outcome.next.inj (hu.symm.trans hstep)
    rw [heff.host]
    exact hadv.takenInOrder

/-- Settles O9 by induction on the run: a step takes at most one word, from the front of one queue. -/
theorem eachAgentsCommandsAreTakenInIssueOrder : Obligations.EachAgentsCommandsAreTakenInIssueOrder := by
  intro n
  induction n with
  | zero =>
    intro s t hrun
    obtain rfl := Host.Outcome.next.inj hrun
    exact ⟨0, 0, by omega, rfl, rfl⟩
  | succ n ih =>
    intro s t hrun
    obtain ⟨u, hstep⟩ := step_completes s
    rw [Nat.add_comm]
    exact (step_takenInOrder hstep).trans (ih u t ((run_succ n hstep).symm.trans hrun))

/-! ### Calibration -/

/-- The axis has been calibrated, to the offset `v` (10_state.md R19, R20). -/
def CalibratedTo (ax : Axis) (v : Offset) (s : State) : Prop := isCalibrated s.calDone ax = true ∧ offsetOf s ax = v

/-- A capture of one axis writes neither the bit nor the offset of the other. -/
theorem calibratedTo_capture_of_ne {ax other : Axis} (hne : other ≠ ax) {w v : Offset} {s : State}
    (hs : CalibratedTo ax v s) : CalibratedTo ax v (setCalDone (setCalibrated s.calDone other) (setOffset other w s)) := by
  obtain ⟨hcal, hoff⟩ := hs
  cases ax with
  | x =>
    cases other with
    | x => exact absurd rfl hne
    | y =>
      rw [isCalibrated_x, ← (setCalibrated_y s.calDone).2, ← isCalibrated_x] at hcal
      exact ⟨hcal, hoff⟩
  | y =>
    cases other with
    | x =>
      rw [isCalibrated_y, ← (setCalibrated_x s.calDone).2, ← isCalibrated_y] at hcal
      exact ⟨hcal, hoff⟩
    | y => exact absurd rfl hne

/-- A capture of the axis would have faulted, and a capture of the other axis leaves it alone. -/
theorem Effect.calibratedTo {s t : State} {ax : Axis} {v : Offset} (h : Effect s t) (hs : CalibratedTo ax v s) :
    CalibratedTo ax v t := by
  cases h with
  | captured other raw hnot =>
    refine calibratedTo_capture_of_ne ?_ hs
    rintro rfl
    exact Bool.noConfusion (hs.1.symm.trans hnot)
  | accepted p lvl => cases p <;> cases ax <;> exact hs
  | _ => cases ax <;> exact hs

theorem run_keeps_calibratedTo {n : Nat} {s t : State} {ax : Axis} (hno : NoReset n s) (hrun : run n s = .next t)
    (hcal : isCalibrated s.calDone ax = true) : CalibratedTo ax (offsetOf s ax) t :=
  run_keeps (P := CalibratedTo ax (offsetOf s ax))
    (fun _ _ hP hrst hstep => by
      obtain ⟨h, -, heff⟩ := effect_of_step hstep hrst
      exact heff.calibratedTo (by cases ax <;> exact hP))
    ⟨hcal, rfl⟩ hno hrun

/-- Settles O25 on each axis by the same invariant of the run. -/
theorem calibrationStaysUntilRst : Obligations.CalibrationStaysUntilRst := by
  intro n s t hno hrun
  rw [← isCalibrated_x, ← isCalibrated_x, ← isCalibrated_y, ← isCalibrated_y]
  exact ⟨run_keeps_calibratedTo hno hrun, run_keeps_calibratedTo hno hrun⟩

/-! ### HALTED -/

theorem sameElements_withHost {s t : State} (h : SameElements s t) (p : HostPort) :
    SameElements s { t with host := p } := by
  rw [h, SameElements]

/-- `t` has `s`'s elements and offers `s`'s words; it may differ in the schedule and NOW_MS. -/
def Untouched (s t : State) : Prop :=
  SameElements s t ∧ t.host.tickCmds = s.host.tickCmds ∧ t.host.edgeCmds = s.host.edgeCmds

theorem Untouched.halted {s t : State} (h : Untouched s t) : t.halted = s.halted := by
  rw [h.1]

/-- A halted DWED passes every turn but RST (60_exceptions.md R121). -/
theorem untouched_step {s t u : State} (hs : s.halted = true) (h : Untouched s t) (hrst : t.host.turns.head? ≠ some .rst)
    (hstep : step t = .next u) : Untouched s u := by
  have hpass : ∃ p : HostPort, step t = .next { t with host := p } ∧ p.tickCmds = t.host.tickCmds ∧
      p.edgeCmds = t.host.edgeCmds := by
    cases ht : t.host.turns with
    | nil => exact ⟨t.host, step_no_turn ht, rfl, rfl⟩
    | cons turn rest =>
      cases turn with
      | rst => simp [ht] at hrst
      | perform agent now =>
        exact ⟨⟨now, t.host.tickCmds, t.host.edgeCmds, rest⟩, step_halted ht (h.halted.trans hs), rfl, rfl⟩
  obtain ⟨p, hp, htick, hedge⟩ := hpass
  obtain rfl := Host.Outcome.next.inj (hp.symm.trans hstep)
  obtain ⟨hsame, htick', hedge'⟩ := h
  exact ⟨sameElements_withHost hsame p, htick.trans htick', hedge.trans hedge'⟩

theorem untouched_refl (s : State) : Untouched s s := ⟨by rw [SameElements], rfl, rfl⟩

theorem halted_run (n : Nat) {s : State} (hs : s.halted = true) (hno : NoReset n s) :
    ∃ t, run n s = .next t ∧ Untouched s t := by
  obtain ⟨t, hrun⟩ := run_completes n s
  exact ⟨t, hrun, run_keeps (fun _ _ h hrst hstep => untouched_step hs h hrst hstep) (untouched_refl s) hno hrun⟩

/-- Settles O17: `halt` and the ports by their definitions, the run by `halted_run`, RST by the Reset column. -/
theorem haltedUntilRst : Obligations.HaltedUntilRst := by
  refine ⟨fun _ => rfl, fun s hs => ?ports, fun n s hs hno => halted_run n hs hno, fun s rest ht => ⟨_, step_rst ht, rfl⟩⟩
  case ports => simp [outputs, hs]

/-- Settles O28: the accepted edge on B, then `halted_run`. -/
theorem acceptedEdgeOnBBootsAndHalts : Obligations.AcceptedEdgeOnBBootsAndHalts := by
  intro s hpast t
  refine ⟨exec_edge_b_of_lt_elapsed hpast, fun n hno => ?_⟩
  obtain ⟨u, hrun, hsame, -⟩ := halted_run n (s := t) rfl hno
  exact ⟨u, hrun, hsame⟩

/-! ### The debounce window -/

/-- Right after RST the elapsed time is the time itself (41_debounce.md R93). -/
theorem elapsed_of_lastEv_zero {s : State} (h : s.lastEv = 0#32) : elapsed s = s.host.nowMs.toNat := by
  have hlt := s.host.nowMs.isLt
  rw [elapsed, h, BitVec.toNat_zero]
  omega

/-- Settles O35: RST leaves LAST_EV 0 and the edge agent's word, so the gate compares `now` itself with the window. -/
theorem firstEdgeAfterRstNeedsAFullWindow : Obligations.FirstEdgeAfterRstNeedsAFullWindow := by
  intro s pin now rest ws hpin ht ho
  have hword : decode (0x50000000#32 ||| pin.setWidth 32) = .ok (.edge pin) :=
    decode_encode (i := .edge pin) (bne_iff_ne.2 hpin)
  let r := resetElements (nextTurn s.host.nowMs (.perform .edge now :: rest) s)
  let u : State := { r with host := ⟨now, s.host.tickCmds, ws, rest⟩ }
  have hrst : step s = .next r := step_rst ht
  have hedge : step r = exec (.edge pin) u := (stepPerformsTheOfferedCommand r now rest _ ws _ rfl hword).2 rfl ho
  have helapsed : elapsed u = now.toNat := elapsed_of_lastEv_zero rfl
  obtain ⟨hignored, haccepted⟩ := gateIgnoresWithinTheWindow pin u hpin
  rw [helapsed] at hignored haccepted
  obtain ⟨t, hexec, -⟩ := exec_effect (.edge pin) u
  refine ⟨t, (run_succ 1 hrst).trans (run_succ 0 (hedge.trans hexec)), fun hin => ?within, fun hpast => ?past⟩
  case within =>
    obtain rfl := Host.Outcome.next.inj ((hignored hin).symm.trans hexec)
    exact ⟨rfl, rfl, rfl, rfl⟩
  case past =>
    obtain ⟨v, hv, hlast⟩ := haccepted hpast
    obtain rfl := Host.Outcome.next.inj (hv.symm.trans hexec)
    exact hlast

/-- Only an edge past the window moves LAST_EV, to the present time (41_debounce.md R82). -/
theorem Effect.lastEv_cases {s t : State} (h : Effect s t) :
    t.lastEv = s.lastEv ∨ (t.lastEv = s.host.nowMs ∧ s.cfg.debounceMs < elapsed s) := by
  cases h with
  | captured ax => cases ax <;> exact .inl rfl
  | accepted p lvl hpast => exact .inr ⟨dispatch_lastEv p _, hpast⟩
  | _ => exact .inl rfl

theorem HostAdvances.nowMs {p q : HostPort} {agent : Agent} {now : Time} {rest : List Turn} (h : HostAdvances p q)
    (ht : p.turns = .perform agent now :: rest) : q.nowMs = now := by
  cases h with
  | idle h => cases h.symm.trans ht
  | passed h => cases h.symm.trans ht; rfl
  | tookTick h => cases h.symm.trans ht; rfl
  | tookEdge h => cases h.symm.trans ht; rfl

/-- A step under a truthful clock leaves one from a true time `t` on, and keeps LAST_EV or moves it to `t`, in which case `t` is
past the window of the last accepted edge. -/
theorem step_truthful {s u : State} {start limit : Nat} (hclock : TruthfulClock start limit s.host.turns)
    (hstep : step s = .next u) :
    ∃ t, start ≤ t ∧ TruthfulClock t limit u.host.turns ∧
      (u.lastEv = s.lastEv ∨
        (t ≤ limit ∧ u.lastEv = BitVec.ofNat 32 t ∧
          ∀ t0 ≤ t, s.lastEv = BitVec.ofNat 32 t0 → s.cfg.debounceMs < (t - t0) % 2 ^ 32)) := by
  cases ht : s.host.turns with
  | nil =>
    obtain rfl := Host.Outcome.next.inj ((step_no_turn ht).symm.trans hstep)
    exact ⟨start, le_rfl, hclock, .inl rfl⟩
  | cons turn rest =>
    rw [ht] at hclock
    cases turn with
    | rst => exact hclock.elim
    | perform agent now =>
      obtain ⟨t, hstart, hlimit, hnow, hrest⟩ := hclock
      obtain ⟨h, hadv, heff⟩ := effect_of_step hstep (by simp [ht])
      have hturns : u.host.turns = rest := by rw [heff.host, hadv.turns, ht, List.tail_cons]
      have hnowMs : h.nowMs = BitVec.ofNat 32 t := (hadv.nowMs ht).trans hnow
      refine ⟨t, hstart, hturns ▸ hrest, heff.lastEv_cases.imp_right ?_⟩
      rintro ⟨hlast, hpast⟩
      refine ⟨hlimit, hlast.trans hnowMs, fun t0 hle hlast0 => ?_⟩
      rwa [elapsed_eq_true_distance (s := { s with host := h }) hle hlast0 hnowMs] at hpast

theorem acceptedEdges_succ (n : Nat) {s u : State} (hstep : step s = .next u) :
    acceptedEdges (n + 1) s = (if u.lastEv = s.lastEv then 0 else 1) + acceptedEdges n u := by
  simp only [acceptedEdges, hstep]

/-- With a whole clock inside the window of the last accepted edge no edge is accepted. -/
theorem acceptedEdges_eq_zero {n : Nat} {s : State} {t0 start limit : Nat}
    (hclock : TruthfulClock start limit s.host.turns) (hlast : s.lastEv = BitVec.ofNat 32 t0) (hstart : t0 ≤ start)
    (hlimit : limit ≤ t0 + s.cfg.debounceMs) : acceptedEdges n s = 0 := by
  induction n generalizing s start with
  | zero => rfl
  | succ n ih =>
    obtain ⟨u, hstep⟩ := step_completes s
    obtain ⟨t, hle, hclock', hkept | ⟨hbound, -, hpast⟩⟩ := step_truthful hclock hstep
    · rw [acceptedEdges_succ n hstep, if_pos hkept, Nat.zero_add]
      refine ih hclock' (hkept.trans hlast) (hstart.trans hle) ?_
      rwa [stepKeepsTheParameters s u hstep]
    · have hdistance := hpast t0 (hstart.trans hle) hlast
      have hmod := Nat.mod_le (t - t0) (2 ^ 32)
      omega

/-- A clock that moves by no more than the window accepts at most one edge: the first accepted one opens a window that holds the
rest of the clock. -/
theorem acceptedEdges_le_one {n : Nat} {s : State} {start limit : Nat} (hclock : TruthfulClock start limit s.host.turns)
    (hlimit : limit ≤ start + s.cfg.debounceMs) : acceptedEdges n s ≤ 1 := by
  induction n generalizing s start with
  | zero => exact Nat.zero_le 1
  | succ n ih =>
    obtain ⟨u, hstep⟩ := step_completes s
    have hcfg : u.cfg = s.cfg := stepKeepsTheParameters s u hstep
    obtain ⟨t, hle, hclock', hkept | ⟨-, hmoved, -⟩⟩ := step_truthful hclock hstep
    · rw [acceptedEdges_succ n hstep, if_pos hkept, Nat.zero_add]
      exact ih hclock' (by rw [hcfg]; omega)
    · rw [acceptedEdges_succ n hstep, acceptedEdges_eq_zero hclock' hmoved le_rfl (by rw [hcfg]; omega), Nat.add_zero]
      split <;> decide

/-- Settles O37 by `acceptedEdges_le_one`, the limit being the start and the window. -/
theorem atMostOneEdgeAcceptedPerWindow : Obligations.AtMostOneEdgeAcceptedPerWindow :=
  fun _ _ _ _ hclock => acceptedEdges_le_one hclock le_rfl

end Sys2Proof.Machine
end

section
/-! SUPPORT. The tick agent's commands together: what they leave unchanged (10_state.md R16, R38), and the expansion of TICK performed
without interruption (30_encoding.md R67), which is the four commands in order since none of them reads the host side. -/

namespace Sys2Proof.Machine

/-! ### The frame of the tick agent's commands -/

/-- `t` differs from `s` at most in the elements the tick agent's commands write, the fault record and the log. -/
def TickFrame (s t : State) : Prop :=
  t = { s with
    offX := t.offX, offY := t.offY, calDone := t.calDone, sx := t.sx, sy := t.sy, pwmR := t.pwmR
    pwmB := t.pwmB, pixX := t.pixX, pixY := t.pixY, fault := t.fault, fcause := t.fcause, evlog := t.evlog }

theorem tickFrame_captureOffset (ax : Axis) (raw : Raw) (s : State) : TickFrame s (captureOffset ax raw s) := by
  obtain ⟨-, h⟩ | ⟨-, h⟩ := captureOffset_cases ax raw s
  · rw [h]
    rfl
  · rw [h]
    cases ax <;> rfl

theorem tickFrame_holdSample (raw : Raw) (s : State) : TickFrame s (holdSample raw s) := by
  obtain ⟨-, h⟩ | ⟨-, h⟩ := holdSample_cases raw s <;> rw [h] <;> rfl

theorem tickFrame_applyDuties (rb : Nat × Nat) (s : State) : TickFrame s (applyDuties rb s) := rfl

theorem tickFrame_renderAt (x y : Nat) (s : State) : TickFrame s (renderAt x y s) := rfl

/-- Settles O43 by the frame of the operation behind each of the six commands. -/
theorem tickCommandsWriteOnlyTheirElements : Obligations.TickCommandsWriteOnlyTheirElements := by
  intro i s t hedge hlevels hexec
  cases i with
  | calx raw => exact Host.Outcome.next.inj hexec ▸ tickFrame_captureOffset .x raw s
  | caly raw => exact Host.Outcome.next.inj hexec ▸ tickFrame_captureOffset .y raw s
  | sampx raw => exact Host.Outcome.next.inj hexec ▸ tickFrame_holdSample raw s
  | sampy raw => exact Host.Outcome.next.inj hexec ▸ (rfl : TickFrame s (clampSample raw s))
  | edge pin => exact absurd rfl (hedge pin)
  | levels lvl => exact absurd rfl (hlevels lvl)
  | map => exact Host.Outcome.next.inj hexec ▸ tickFrame_applyDuties _ s
  | pix => exact Host.Outcome.next.inj hexec ▸ tickFrame_renderAt _ _ s

/-! ### TICK -/

/-- The commands performed one after another lead from `s` to `t`. -/
inductive Performs : List Instr → State → State → Prop
  | nil (s : State) : Performs [] s s
  | cons {i : Instr} {is : List Instr} {s t u : State} (hexec : exec i s = .next t) (h : Performs is t u) :
    Performs (i :: is) s u

theorem halted_of_exec {i : Instr} {s t : State} (hnow : ¬UsesNow i) (hexec : exec i s = .next t) :
    t.halted = s.halted := by
  have hframe := tickCommandsWriteOnlyTheirElements i s t (fun _ h => hnow (h ▸ trivial)) (fun _ h => hnow (h ▸ trivial)) hexec
  rw [hframe]

/-- A turn of the tick agent performs its first command on the elements as they are; the host side only advances. -/
theorem step_tickTurn {s t : State} {i : Instr} (hh : s.halted = false) (hi : WellFormed i) (hnow : ¬UsesNow i)
    (hexec : exec i s = .next t) (old now : Time) (ws es : List Word) (rest : List Turn) :
    step { s with host := ⟨old, encode i :: ws, es, .perform .tick now :: rest⟩ } =
      .next { t with host := ⟨now, ws, es, rest⟩ } := by
  let s' : State := { s with host := ⟨old, encode i :: ws, es, .perform .tick now :: rest⟩ }
  have hstep : step s' = exec i { s with host := ⟨now, ws, es, rest⟩ } :=
    (stepPerformsTheOfferedCommand s' now rest (encode i) ws i hh (decode_encode hi)).1 rfl rfl
  exact hstep.trans (exec_withHost hnow hexec _)

/-- Commands that do not use NOW_MS, offered by the tick agent with its turns in a row, are performed one after another. -/
theorem run_performs {is : List Instr} {s t : State} (hperforms : Performs is s t)
    (his : ∀ i ∈ is, WellFormed i ∧ ¬UsesNow i) (hh : s.halted = false) (old now : Time) (ws es : List Word)
    (rest : List Turn) :
    ∃ last, run is.length { s with
        host := ⟨old, is.map encode ++ ws, es, List.replicate is.length (.perform .tick now) ++ rest⟩ } =
      .next { t with host := ⟨last, ws, es, rest⟩ } := by
  induction hperforms generalizing old with
  | nil s => exact ⟨old, rfl⟩
  | cons hexec _ ih =>
    obtain ⟨⟨hi, hnow⟩, his⟩ := List.forall_mem_cons.1 his
    obtain ⟨last, hrun⟩ := ih his ((halted_of_exec hnow hexec).trans hh) now
    exact ⟨last, (run_succ _ (step_tickTurn hh hi hnow hexec old now _ es _)).trans hrun⟩

/-- The same from a state that offers the expansion of TICK and has four turns for it (30_encoding.md R67). -/
theorem run_tick {s t : State} {rx ry : Raw} {ws : List Word} {now : Time} {rest : List Turn} (hh : s.halted = false)
    (hcmds : s.host.tickCmds = (Pseudo.tick rx ry).words ++ ws)
    (hturns : s.host.turns =
      [.perform .tick now, .perform .tick now, .perform .tick now, .perform .tick now] ++ rest)
    (hperforms : Performs (Pseudo.tick rx ry).expand s t) :
    ∃ last, run 4 s = .next { t with host := ⟨last, ws, s.host.edgeCmds, rest⟩ } := by
  have hoffer : s = { s with host := ⟨s.host.nowMs, (Pseudo.tick rx ry).words ++ ws, s.host.edgeCmds,
      [.perform .tick now, .perform .tick now, .perform .tick now, .perform .tick now] ++ rest⟩ } := by
    rw [← hcmds, ← hturns]
  obtain ⟨last, hrun⟩ := run_performs hperforms (by simp [Pseudo.expand, WellFormed, Instr.wellFormed, UsesNow]) hh
    s.host.nowMs now ws s.host.edgeCmds rest
  exact ⟨last, (congrArg (run 4) hoffer).trans hrun⟩

/-- The two samples write the sample registers alone. -/
theorem clampSample_holdSample_frame (rx ry : Raw) (s : State) :
    clampSample ry (holdSample rx s) =
      { s with sx := (holdSample rx s).sx, sy := (clampSample ry (holdSample rx s)).sy } := by
  obtain ⟨-, h⟩ | ⟨-, h⟩ := holdSample_cases rx s <;> rw [h] <;> rfl

/-- Settles O45: the run is the four commands in order (`run_tick`), and what PIX and MAP write is O40 and O38. -/
theorem uninterruptedTickDrivesTheOutputs : Obligations.UninterruptedTickDrivesTheOutputs := by
  intro s rx ry ws now rest hp hh hcmds hturns
  have hframe := clampSample_holdSample_frame rx ry s
  generalize hu : clampSample ry (holdSample rx s) = u at hframe
  have hcfg : u.cfg = s.cfg := by rw [hframe]
  obtain ⟨-, -, p, hpix, hpixX, hpixY, hpixLog, hpixFrame⟩ := pixPlacesTheMarkerAndRenders u (hcfg ▸ hp)
  have hcfg' : p.cfg = s.cfg := by rw [hpixFrame, hcfg]
  obtain ⟨-, -, v, hmap, hpwmR, hpwmB, hmapLog, hmapFrame⟩ := mapAppliesTheDutiesOfTheMode p (hcfg' ▸ hp)
  have hsampy : exec (.sampy ry) (holdSample rx s) = .next u := (exec_sampy _ ry).trans (congrArg _ hu)
  obtain ⟨last, hrun⟩ :=
    run_tick hh hcmds hturns (.cons (exec_sampx s rx) (.cons hsampy (.cons hpix (.cons hmap (.nil v)))))
  have hsx : p.sx = u.sx := by rw [hpixFrame]
  have hsy : p.sy = u.sy := by rw [hpixFrame]
  have hmode : p.ledMode = s.ledMode := by rw [hpixFrame, hframe]
  have hvx : v.pixX = p.pixX := by rw [hmapFrame]
  have hvy : v.pixY = p.pixY := by rw [hmapFrame]
  rw [hcfg, ← hvx] at hpixX
  rw [hcfg, ← hvy] at hpixY
  rw [hcfg, ← hpixX, ← hpixY, show u.borderD = s.borderD by rw [hframe], show u.evlog = s.evlog by rw [hframe]] at hpixLog
  rw [hpixLog, ← hpwmR, ← hpwmB, List.append_assoc] at hmapLog
  rw [hsx, hmode, hcfg'] at hpwmR
  rw [hsy, hmode, hcfg'] at hpwmB
  have hvsx : v.sx = (holdSample rx s).sx := by rw [hmapFrame, hsx, hframe]
  have hvsy : v.sy = u.sy := by rw [hmapFrame, hsy]
  exact ⟨holdSample rx s, u, _, exec_sampx s rx, hsampy, hrun, hvsx, hvsy, rfl, hpixX, hpixY, hmapLog, hpwmR, hpwmB⟩

end Sys2Proof.Machine
end
